-- ==== Sys2Proof/Word.lean ====
section
/-! DEFINITION. The words of the core (8-bit bytes, 16-bit addresses) and the closed enumerations that an opcode's fields
select: the seven registers, the eight ALU operations, the two operand forms and the 19 instruction forms of rule R64. -/

namespace Sys2Proof

/-- A register value, a memory cell, an opcode or the flag byte (R6, R8). -/
abbrev Byte := BitVec 8

/-- A 16-bit memory address (R6, R40). -/
abbrev Addr := BitVec 16

/-- The register names, a closed type of exactly seven values (R20, R21). -/
inductive Reg where
  | b | c | d | e | h | l | a
deriving DecidableEq, Repr

/-- The register-file index of R20: B=0, C=1, D=2, E=3, H=4, L=5, A=6. It is not the 3-bit encoding field (R62). -/
def Reg.index : Reg → Fin 7
  | .b => 0
  | .c => 1
  | .d => 2
  | .e => 3
  | .h => 4
  | .l => 5
  | .a => 6

/-- The eight accumulator operations, in the order of R94's table. -/
inductive AluOp where
  | add | adc | sub | sbb | ana | xra | ora | cmp
deriving DecidableEq, Repr

/-- The two operand forms of R63: a register, or the memory byte at HL (the assembler's M). -/
inductive Operand where
  | reg (r : Reg)
  | mem
deriving DecidableEq, Repr

/-- The instruction forms of R64 with their operands, and the unimplemented opcode of R68 with its byte (R70).
`alu o (.reg r)` and `alu o .mem` are the two rows R64 gives each operation `o`. -/
inductive Form where
  | movRR (dst src : Reg)
  | movRM (dst : Reg)
  | movMR (src : Reg)
  | alu (o : AluOp) (src : Operand)
  | unimplemented (op : Byte)
deriving DecidableEq, Repr

end Sys2Proof
end

