-- ==== Sys2Proof/Config.lean ====
section
/-! DEFINITION. What an implementation or a test fixes, with the values this model starts from. The spec's two parameters,
MEM_SIZE and OOS_COST (R6), are data in State so that a claim can range over them; their defaults stand here and in
Machine/Cycles.lean. The spec leaves no result of any instruction undefined, so there is no free value. -/

namespace Sys2Proof

/-- The least MEM_SIZE a configuration may have: every 16-bit address has a cell (R41). -/
def Config.minMemSize : Nat := 65536

/-- The default of the parameter MEM_SIZE (R6, R41, D5). -/
def Config.memSize : Nat := 65536

/-- DESIGN CHOICE (log 10): D11's parameter PC0 in the state after reset. It belongs to the driver, not to the core (R162). -/
def Config.pc0 : Addr := 0x0000#16

end Sys2Proof
end

