-- ==== Sys2Proof/Syntax.lean ====
section
/-! DEFINITION. The instruction set as syntax: one constructor for each mnemonic of spec/opcode_table.json. The table gives
each of the 127 in-scope opcodes a mnemonic of its own (MOV_B_C, ADD_M, ...), so those constructors take no argument; its
129 rows (unimplemented) are one constructor that carries the opcode byte (R70). -/

namespace Sys2Proof

/-- `movXY` is MOV X,Y (R80, R81, R82) and `opX` is the accumulator operation on X (R100 to R115), M being the memory byte
at HL; `unimplemented op` is an opcode with no modelled behaviour (R68, R125). -/
inductive Instr where
  | movBB | movBC | movBD | movBE | movBH | movBL | movBM | movBA
  | movCB | movCC | movCD | movCE | movCH | movCL | movCM | movCA
  | movDB | movDC | movDD | movDE | movDH | movDL | movDM | movDA
  | movEB | movEC | movED | movEE | movEH | movEL | movEM | movEA
  | movHB | movHC | movHD | movHE | movHH | movHL | movHM | movHA
  | movLB | movLC | movLD | movLE | movLH | movLL | movLM | movLA
  | movMB | movMC | movMD | movME | movMH | movML | movMA
  | movAB | movAC | movAD | movAE | movAH | movAL | movAM | movAA
  | addB | addC | addD | addE | addH | addL | addM | addA
  | adcB | adcC | adcD | adcE | adcH | adcL | adcM | adcA
  | subB | subC | subD | subE | subH | subL | subM | subA
  | sbbB | sbbC | sbbD | sbbE | sbbH | sbbL | sbbM | sbbA
  | anaB | anaC | anaD | anaE | anaH | anaL | anaM | anaA
  | xraB | xraC | xraD | xraE | xraH | xraL | xraM | xraA
  | oraB | oraC | oraD | oraE | oraH | oraL | oraM | oraA
  | cmpB | cmpC | cmpD | cmpE | cmpH | cmpL | cmpM | cmpA
  | unimplemented (op : Byte)
deriving DecidableEq, Repr

end Sys2Proof
end

