-- ==== Sys2Proof/WellFormed.lean ====
section
/-! DEFINITION. Which instructions are well formed: the opcode an unimplemented instruction carries is one of the 129 of
R68. The other constructors hold no field, so there is nothing to check in them. -/

namespace Sys2Proof

/-- The 129 unimplemented opcodes of R68: all of 0x00-0x3F, all of 0xC0-0xFF, and 0x76. -/
def unimplementedOpcode (op : Byte) : Bool :=
  decide (op.toNat ≤ 0x3F) || decide (0xC0 ≤ op.toNat) || op == 0x76#8

/-- The opcode an instruction carries as a field: only the unimplemented instruction has one. -/
def Instr.carriedOpcode : Instr → Option Byte
  | .unimplemented op => some op
  | _ => none

/-- An instruction is well formed when the opcode it carries, if any, is unimplemented. -/
def Instr.wellFormed (i : Instr) : Bool :=
  match i.carriedOpcode with
  | some op => unimplementedOpcode op
  | none => true

end Sys2Proof
end

