-- ==== Sys2Proof/Machine/Cycles.lean ====
section
/-! DEFINITION. The cycle table CT (R120 to R123): the fixed costs of the 127 in-scope opcodes, and the parameter OOS_COST for
the 129 unimplemented ones. -/

namespace Sys2Proof.Machine

/-- The parameter OOS_COST as a list of (opcode, cost); an opcode it does not list has the cost `absentCost`. -/
abbrev OosCost := List (Byte × Nat)

/-- The cost of an unimplemented opcode that OOS_COST does not list: 0, the default of R122 and the reading of an absent
entry in R120. -/
def absentCost (_op : Byte) : Nat := 0

/-- OOS_COST[op] (R122). -/
def oosCostOf (costs : OosCost) (op : Byte) : Nat := (costs.lookup op).getD (absentCost op)

/-- The cost of a form (R121): MOV between registers 5, MOV with M 7, ALU on a register 4, ALU on M 7; an unimplemented
opcode costs OOS_COST[op] (R122). -/
def cyclesOf (costs : OosCost) : Form → Nat
  | .movRR _ _ => 5
  | .movRM _ => 7
  | .movMR _ => 7
  | .alu _ (.reg _) => 4
  | .alu _ .mem => 7
  | .unimplemented op => oosCostOf costs op

/-- CT[op], a total function on the opcode byte (R120). -/
def cycleTable (costs : OosCost) (op : Byte) : Nat := cyclesOf costs (decodeForm op)

/-- Some unimplemented opcode costs 0, as R122 requires of a configuration. -/
def someUncosted (costs : OosCost) : Bool :=
  (List.range 256).any fun n => unimplementedOpcode (BitVec.ofNat 8 n) && oosCostOf costs (BitVec.ofNat 8 n) == 0

end Sys2Proof.Machine
end

