-- ==== Sys2Proof/Machine/Memory.lean ====
section
/-! DEFINITION. The caller's byte store as plain data (R40, R48): a list of cells with strictly rising addresses that lists
no cell equal to what an unlisted address reads as, so that equal memories are equal lists. -/

namespace Sys2Proof.Machine

/-- The listed cells of the memory collaborator (R40). -/
abbrev Memory := List Host.Cell

/-- DESIGN CHOICE (log 6): what a cell that the list does not hold reads as. The spec leaves the launch contents to the caller
(R47, D6); a launch memory with any other bytes lists them. -/
def Memory.unlisted : Byte := 0x00#8

/-- MemRead(a, 1): the byte held at `a` (R48). -/
def Memory.read : Memory → Nat → Byte
  | [], _ => Memory.unlisted
  | (k, v) :: rest, a => if k = a then v else Memory.read rest a

/-- The list without its cell at `a`. -/
def Memory.erase (m : Memory) (a : Nat) : Memory := m.filter fun cell => cell.1 != a

/-- The list with the cell (a, v) put before the first higher address. -/
def Memory.insert : Memory → Nat → Byte → Memory
  | [], a, v => [(a, v)]
  | (k, w) :: rest, a, v => if a < k then (a, v) :: (k, w) :: rest else (k, w) :: Memory.insert rest a v

/-- MemWrite(a, 1, v): the byte `v` stored at `a`, every other cell as before (R48). -/
def Memory.write (m : Memory) (a : Nat) (v : Byte) : Memory :=
  if v = Memory.unlisted then m.erase a else (m.erase a).insert a v

/-- The canonical form: addresses strictly rising, no cell that an unlisted address would read as. -/
def Memory.wf : Memory → Bool
  | [] => true
  | (k, v) :: rest => v != Memory.unlisted && rest.all (fun cell => decide (k < cell.1)) && Memory.wf rest

/-- Every listed cell lies inside a store of `size` cells, addressed 0 to size - 1 (R41). -/
def Memory.within (m : Memory) (size : Nat) : Bool := m.all fun cell => decide (cell.1 < size)

end Sys2Proof.Machine
end

