-- ==== Sys2Proof/Machine/State.lean ====
section
/-! DEFINITION. The state as plain data: the core's record of R33, the parameters of R6, the caller's memory, and the caller's
side of the boundary (its pending moves, its driver's pc, the reports it has received). -/

namespace Sys2Proof.Machine

/-- The register file of R20, its fields in index order. -/
structure RegFile where
  b : Byte
  c : Byte
  d : Byte
  e : Byte
  h : Byte
  l : Byte
  a : Byte
deriving DecidableEq, Repr

/-- What the caller may do between calls (R154, D18). Nothing else has a move. -/
inductive HostMove where
  /-- Init, with the optional snapshot of seven bytes in the index order B, C, D, E, H, L, A (R160). -/
  | init (snapshot : Option (Vector Byte 7))
  /-- One `Execute(op)` call with an opcode byte of the caller's choice (R124, R128). -/
  | execute (op : Byte)
  /-- The caller reads registers, F and cycles, or dumps the registers; the core does nothing (R34, R150). -/
  | inspect
  /-- The caller stores a byte in its own memory between calls. -/
  | poke (addr : Nat) (v : Byte)
deriving DecidableEq, Repr

/-- The state of the core, of the memory lent to it, and of the caller. -/
structure State where
  /-- x[B] to x[A] (R20). -/
  regs : RegFile
  /-- F, the flag byte, reserved bits included (R24, R25). -/
  flags : Byte
  /-- The cycle counter, an unbounded natural number (R28, D17). -/
  cycles : Nat
  /-- The parameter OOS_COST: the part of the cycle table the spec leaves open (R122). No step writes it. -/
  oosCost : OosCost
  /-- The parameter MEM_SIZE (R41). No step writes it. -/
  memSize : Nat
  /-- The memory collaborator's cells (R40). -/
  mem : Memory
  /-- The opcodes reported as unimplemented so far, oldest first: the output of R126. No step reads it. -/
  reports : List Byte
  /-- The caller's pending moves, oldest first. When there is none the caller runs the driver of D11. -/
  host : List HostMove
  /-- The pc of the caller's driver (D11). It is no state of the core (R29). -/
  pc : Addr
deriving DecidableEq, Repr

/-- The reasons a step could stop with a fault: none. No instruction can fail and the step function has no fault outcome
(R140), so the type has no constructor. -/
inductive Fault where
deriving DecidableEq, Repr

/-- The reasons a step is refused. No meaning of an instruction raises any of them. -/
inductive Refusal where
  /-- Raised by an arm of exec that has no meaning yet; no arm raises it any more. Safe: it stops where the core goes on. -/
  | notModelled (mnemonic : String)
  /-- Raised by step on a configuration with MEM_SIZE below 65,536, which the spec refuses (R41, R51, U2). Safe. -/
  | memoryTooSmall
  /-- Raised by step on a configuration whose OOS_COST has no zero entry, which R122 does not admit. Safe. -/
  | everyOpcodeCosted
  /-- Raised by step when the caller writes outside the memory it owns, for which the spec leaves the effect to the
  collaborator (R51, U2). Safe. -/
  | pokeOutsideMemory
deriving DecidableEq, Repr

/-- The state right after Init without a snapshot (R35, R160), with both parameters at their defaults (R6), no memory cell
listed, no move pending, nothing reported, and the driver's pc at `Config.pc0`. -/
def State.reset : State where
  regs := { b := 0x00, c := 0x00, d := 0x00, e := 0x00, h := 0x00, l := 0x00, a := 0x00 }
  flags := 0x00
  cycles := 0
  oosCost := []
  memSize := Config.memSize
  mem := []
  reports := []
  host := []
  pc := Config.pc0

end Sys2Proof.Machine
end

