-- ==== Sys2Proof/Machine/Ops.lean ====
section
/-! DEFINITION. The named operations over registers, memory, the cycle counter and the report output, and Init. The core
takes no exception and has no return from one (R140, R144, R145), so no operation for either exists. -/

namespace Sys2Proof.Machine

/-- read(reg) of R21. -/
def RegFile.read (x : RegFile) : Reg → Byte
  | .b => x.b
  | .c => x.c
  | .d => x.d
  | .e => x.e
  | .h => x.h
  | .l => x.l
  | .a => x.a

/-- write(reg, byte) of R21: no side effect beyond the mutation. -/
def RegFile.write (x : RegFile) : Reg → Byte → RegFile
  | .b, v => { x with b := v }
  | .c, v => { x with c := v }
  | .d, v => { x with d := v }
  | .e, v => { x with e := v }
  | .h, v => { x with h := v }
  | .l, v => { x with l := v }
  | .a, v => { x with a := v }

/-- x[r] (R9). -/
def State.getReg (s : State) (r : Reg) : Byte := s.regs.read r

/-- x[r] <- v (R9). -/
def State.setReg (s : State) (r : Reg) (v : Byte) : State := { s with regs := s.regs.write r v }

/-- F <- v, all eight bits; the ALU passes it a byte whose reserved bits are the old ones (Flags.lean). -/
def State.setFlags (s : State) (v : Byte) : State := { s with flags := v }

/-- MemRead(addr, 1) (R40, R48). -/
def State.loadByte (s : State) (addr : Addr) : Byte := s.mem.read addr.toNat

/-- MemWrite(addr, 1, v) (R40, R48). -/
def State.storeByte (s : State) (addr : Addr) (v : Byte) : State := { s with mem := s.mem.write addr.toNat v }

/-- cycles <- cycles + n (R28). -/
def State.addCycles (s : State) (n : Nat) : State := { s with cycles := s.cycles + n }

/-- Step 1 of Execute for an opcode of the given form: adds its tabulated cost (R124). -/
def State.charge (s : State) (f : Form) : State := s.addCycles (cyclesOf s.oosCost f)

/-- report Unimplemented(op) (R126). -/
def State.report (s : State) (op : Byte) : State := { s with reports := s.reports ++ [op] }

/-- The registers of an Init snapshot: v[i] goes to the register of index i (R160, R20). -/
def RegFile.ofSnapshot (v : Vector Byte 7) : RegFile where
  b := v[0]
  c := v[1]
  d := v[2]
  e := v[3]
  h := v[4]
  l := v[5]
  a := v[6]

/-- The snapshot that Init takes when the caller gives none (R160). -/
def zeroSnapshot : Vector Byte 7 := Vector.replicate 7 0x00

/-- Init (R160, R35): registers from the snapshot, F and cycles zeroed; the cycle table stays that of R121 and R122, since
its open part is a parameter. Memory is not touched and no report is emitted. -/
def State.init (s : State) (snapshot : Option (Vector Byte 7)) : State :=
  { s with regs := RegFile.ofSnapshot (snapshot.getD zeroSnapshot), flags := 0x00, cycles := 0 }

/-- The register dump of R150: each register's name and value in index order; a pure read. -/
def State.registerDump (s : State) : List (String × Byte) :=
  [("B", s.regs.b), ("C", s.regs.c), ("D", s.regs.d), ("E", s.regs.e), ("H", s.regs.h), ("L", s.regs.l), ("A", s.regs.a)]

end Sys2Proof.Machine
end

