-- ==== Sys2Proof/Machine/Operands.lean ====
section
/-! DEFINITION. The effective address and the two operand forms (R43, R63, R90). -/

namespace Sys2Proof.Machine

/-- HL = (zext_16(x[H]) << 8) | zext_16(x[L]), from the registers as they are in `s` (R43, R9). -/
def State.hl (s : State) : Addr :=
  ((s.getReg .h).setWidth 16 <<< 8) ||| (s.getReg .l).setWidth 16

/-- The value of an operand: x[r], or the byte at HL (R63, R90). -/
def State.operand (s : State) : Operand → Byte
  | .reg r => s.getReg r
  | .mem => s.loadByte s.hl

end Sys2Proof.Machine
end

