-- ==== Sys2Proof/Machine/Caller.lean ====
section
/-! DEFINITION. The caller of the core (R154): which configurations are admitted, what each of its moves does, and the
reference driver of D11. DESIGN CHOICE (log 9): the caller makes its pending moves first, oldest first, and runs the driver
when none is left. -/

namespace Sys2Proof.Machine

/-- What the caller asks of the core next. -/
inductive Call where
  /-- `Execute` of the decoded instruction, at the state the call finds. -/
  | execute (i : Instr) (s : State)
  /-- A move in which the core executes nothing, and the state after it. -/
  | done (s : State)
  /-- A configuration or a move that is refused. -/
  | refuse (r : Refusal)
deriving DecidableEq, Repr

/-- The configurations the spec admits: MEM_SIZE of at least 65,536 (R41), and OOS_COST with a zero entry (R122). -/
def State.admitted (s : State) : Bool := decide (Config.minMemSize ≤ s.memSize) && someUncosted s.oosCost

/-- op <- MemRead(pc, 1) of the driver (D11). It sees every earlier store (R55). -/
def State.fetch (s : State) : Byte := s.loadByte s.pc

/-- pc <- (pc + 1) mod 65536 of the driver (D11). -/
def State.advancePc (s : State) : State := { s with pc := s.pc + 1#16 }

/-- The caller's move is taken from its pending moves. -/
def State.setHost (s : State) (moves : List HostMove) : State := { s with host := moves }

/-- One step of the driver: fetch, advance, Execute (D11). -/
def driverCall (s : State) : Call := .execute (decodeByte s.fetch) s.advancePc

/-- A byte stored by the caller between calls (R154); outside its own memory the move is refused (R51, U2). -/
def pokeCall (addr : Nat) (v : Byte) (s : State) : Call :=
  if addr < s.memSize then .done { s with mem := s.mem.write addr v } else .refuse .pokeOutsideMemory

/-- One move of the caller, at the state without it (R154). -/
def moveCall (m : HostMove) (s : State) : Call :=
  match m with
  | .init snapshot => .done (s.init snapshot)
  | .execute op => .execute (decodeByte op) s
  | .inspect => .done s
  | .poke addr v => pokeCall addr v s

/-- The caller's choice: its oldest pending move, else one step of its driver. -/
def callerChoice (s : State) : Call :=
  match s.host with
  | [] => driverCall s
  | m :: rest => moveCall m (s.setHost rest)

/-- The caller's next call; a configuration that is not admitted is refused. -/
def nextCall (s : State) : Call :=
  if s.memSize < Config.minMemSize then .refuse .memoryTooSmall
  else if someUncosted s.oosCost = false then .refuse .everyOpcodeCosted
  else callerChoice s

/-- `s` with one opcode byte placed where the driver fetches next and no move pending before that fetch (log 12). -/
def placeOpcode (s : State) (op : Byte) : State := (s.storeByte s.pc op).setHost []

end Sys2Proof.Machine
end

