-- ==== Sys2Proof/Machine/Flags.lean ====
section
/-! DEFINITION. The flag byte (R24 to R26), the common flags (R92, R93) and the ALU function of R94's table. The layout and
the AC rules are the document's own, not the Intel 8080's (C6, C7). -/

namespace Sys2Proof.Machine

/-- The mask of Carry (R24). -/
def maskCY : Byte := 0x80#8

/-- The mask of Parity (R24). -/
def maskP : Byte := 0x20#8

/-- The mask of Auxiliary Carry (R24). -/
def maskAC : Byte := 0x08#8

/-- The mask of Zero (R24). -/
def maskZ : Byte := 0x02#8

/-- The mask of Sign (R24). -/
def maskS : Byte := 0x01#8

/-- RSV, the reserved bits 6, 4 and 2 (R25). -/
def maskRSV : Byte := 0x54#8

/-- set(mask): F <- F | mask (R26). -/
def flagSet (f mask : Byte) : Byte := f ||| mask

/-- clear(mask): F <- F & ~mask (R26). -/
def flagClear (f mask : Byte) : Byte := f &&& ~~~mask

/-- is_set(mask): (F & mask) != 0 (R26). -/
def flagIsSet (f mask : Byte) : Bool := f &&& mask != 0#8

/-- replace(v): F <- (F & RSV) | (v & ~RSV) (R26, C8). -/
def flagReplace (f v : Byte) : Byte := (f &&& maskRSV) ||| (v &&& ~~~maskRSV)

/-- A flag's bit at place `n` of the flag byte. -/
def flagBit (v : Bool) (n : Nat) : Byte := (BitVec.ofBool v).setWidth 8 <<< n

/-- (CY << 7) | (P << 5) | (AC << 3) | (Z << 1) | (S << 0) (R93). -/
def packFlags (cy p ac z s : Bool) : Byte :=
  flagBit cy 7 ||| flagBit p 5 ||| flagBit ac 3 ||| flagBit z 1 ||| flagBit s 0

/-- trunc8(v) = v mod 256, the mathematical modulo (R8). -/
def trunc8 (v : Int) : Byte := BitVec.ofInt 8 v

/-- popcount(v): the number of one bits (R8). -/
def popcount (v : Byte) : Nat := ((List.range 8).map fun n => (v.getLsbD n).toNat).sum

/-- Z of an 8-bit result (R92). -/
def flagZero (res : Byte) : Bool := res == 0#8

/-- S of an 8-bit result (R92). -/
def flagSign (res : Byte) : Bool := res.getLsbD 7

/-- P of an 8-bit result (R92). -/
def flagParity (res : Byte) : Bool := popcount res % 2 == 0

/-- v & 0xF as a number (R94). -/
def lowNibble (v : Byte) : Nat := (v &&& 0x0F#8).toNat

/-- The column "res (before trunc8)" of R94, on unbounded integers (R8, D8). -/
def aluWide (o : AluOp) (a b : Byte) (cin : Bool) : Int :=
  match o with
  | .add => (a.toNat : Int) + (b.toNat : Int)
  | .adc => (a.toNat : Int) + (b.toNat : Int) + (cin.toNat : Int)
  | .sub => (a.toNat : Int) - (b.toNat : Int)
  | .sbb => (a.toNat : Int) - (b.toNat : Int) - (cin.toNat : Int)
  | .ana => ((a &&& b).toNat : Int)
  | .xra => ((a ^^^ b).toNat : Int)
  | .ora => ((a ||| b).toNat : Int)
  | .cmp => (a.toNat : Int) - (b.toNat : Int)

/-- res = trunc8(...) (R94). -/
def aluResult (o : AluOp) (a b : Byte) (cin : Bool) : Byte := trunc8 (aluWide o a b cin)

/-- The column CY of R94. -/
def aluCarry (o : AluOp) (a b : Byte) (cin : Bool) : Bool :=
  match o with
  | .add => decide (a.toNat + b.toNat > 0xFF)
  | .adc => decide (a.toNat + b.toNat + cin.toNat > 0xFF)
  | .sub => decide (b.toNat > a.toNat)
  | .sbb => decide (b.toNat + cin.toNat > a.toNat)
  | .ana => false
  | .xra => false
  | .ora => false
  | .cmp => decide (b.toNat > a.toNat)

/-- The column AC of R94. -/
def aluAux (o : AluOp) (a b : Byte) (cin : Bool) : Bool :=
  match o with
  | .add => decide (lowNibble a + lowNibble b > 0xF)
  | .adc => decide (lowNibble a + lowNibble b + cin.toNat > 0xF)
  | .sub => decide (lowNibble a < lowNibble b)
  | .sbb => decide (lowNibble a < lowNibble b + cin.toNat)
  | .ana => false
  | .xra => false
  | .ora => false
  | .cmp => decide (lowNibble a < lowNibble b)

/-- The column writeA of R94: every operation but CMP stores its result in A. -/
def aluWritesA : AluOp → Bool
  | .add => true
  | .adc => true
  | .sub => true
  | .sbb => true
  | .ana => true
  | .xra => true
  | .ora => true
  | .cmp => false

/-- The five flags of an operation (R92, R94), packed as R93 packs them. -/
def aluFlags (o : AluOp) (a b : Byte) (cin : Bool) : Byte :=
  packFlags (aluCarry o a b cin) (flagParity (aluResult o a b cin)) (aluAux o a b cin)
    (flagZero (aluResult o a b cin)) (flagSign (aluResult o a b cin))

end Sys2Proof.Machine
end

