-- ==== Sys2Proof/Machine/Mov.lean ====
section
/-! DEFINITION. The data-movement family (R80 to R84): one operation for each of its three instructions, and the meaning of
each of its 63 opcodes as a call of it. No MOV can fail and none writes F (R83). -/

namespace Sys2Proof.Machine

/-- What an instruction answers. -/
abbrev Result := Host.Outcome State Fault Refusal

/-- MOV r,r' (R80): x[dst] <- x[src]; defined even when the two are one register. -/
def movRR (dst src : Reg) (s : State) : State := (s.charge (.movRR dst src)).setReg dst (s.getReg src)

/-- MOV r,M (R81): the byte at HL, formed before the write, goes to x[dst]. -/
def movRM (dst : Reg) (s : State) : State := (s.charge (.movRM dst)).setReg dst (s.loadByte s.hl)

/-- MOV M,r (R82): x[src] is stored at HL; no register is written. -/
def movMR (src : Reg) (s : State) : State := (s.charge (.movMR src)).storeByte s.hl (s.getReg src)

/-- MOV B,B, opcode 0x40 (R80). -/
def execMovBB (s : State) : Result := .next (movRR .b .b s)

/-- MOV B,C, opcode 0x41 (R80). -/
def execMovBC (s : State) : Result := .next (movRR .b .c s)

/-- MOV B,D, opcode 0x42 (R80). -/
def execMovBD (s : State) : Result := .next (movRR .b .d s)

/-- MOV B,E, opcode 0x43 (R80). -/
def execMovBE (s : State) : Result := .next (movRR .b .e s)

/-- MOV B,H, opcode 0x44 (R80). -/
def execMovBH (s : State) : Result := .next (movRR .b .h s)

/-- MOV B,L, opcode 0x45 (R80). -/
def execMovBL (s : State) : Result := .next (movRR .b .l s)

/-- MOV B,M, opcode 0x46 (R81). -/
def execMovBM (s : State) : Result := .next (movRM .b s)

/-- MOV B,A, opcode 0x47 (R80). -/
def execMovBA (s : State) : Result := .next (movRR .b .a s)

/-- MOV C,B, opcode 0x48 (R80). -/
def execMovCB (s : State) : Result := .next (movRR .c .b s)

/-- MOV C,C, opcode 0x49 (R80). -/
def execMovCC (s : State) : Result := .next (movRR .c .c s)

/-- MOV C,D, opcode 0x4A (R80). -/
def execMovCD (s : State) : Result := .next (movRR .c .d s)

/-- MOV C,E, opcode 0x4B (R80). -/
def execMovCE (s : State) : Result := .next (movRR .c .e s)

/-- MOV C,H, opcode 0x4C (R80). -/
def execMovCH (s : State) : Result := .next (movRR .c .h s)

/-- MOV C,L, opcode 0x4D (R80). -/
def execMovCL (s : State) : Result := .next (movRR .c .l s)

/-- MOV C,M, opcode 0x4E (R81). -/
def execMovCM (s : State) : Result := .next (movRM .c s)

/-- MOV C,A, opcode 0x4F (R80). -/
def execMovCA (s : State) : Result := .next (movRR .c .a s)

/-- MOV D,B, opcode 0x50 (R80). -/
def execMovDB (s : State) : Result := .next (movRR .d .b s)

/-- MOV D,C, opcode 0x51 (R80). -/
def execMovDC (s : State) : Result := .next (movRR .d .c s)

/-- MOV D,D, opcode 0x52 (R80). -/
def execMovDD (s : State) : Result := .next (movRR .d .d s)

/-- MOV D,E, opcode 0x53 (R80). -/
def execMovDE (s : State) : Result := .next (movRR .d .e s)

/-- MOV D,H, opcode 0x54 (R80). -/
def execMovDH (s : State) : Result := .next (movRR .d .h s)

/-- MOV D,L, opcode 0x55 (R80). -/
def execMovDL (s : State) : Result := .next (movRR .d .l s)

/-- MOV D,M, opcode 0x56 (R81). -/
def execMovDM (s : State) : Result := .next (movRM .d s)

/-- MOV D,A, opcode 0x57 (R80). -/
def execMovDA (s : State) : Result := .next (movRR .d .a s)

/-- MOV E,B, opcode 0x58 (R80). -/
def execMovEB (s : State) : Result := .next (movRR .e .b s)

/-- MOV E,C, opcode 0x59 (R80). -/
def execMovEC (s : State) : Result := .next (movRR .e .c s)

/-- MOV E,D, opcode 0x5A (R80). -/
def execMovED (s : State) : Result := .next (movRR .e .d s)

/-- MOV E,E, opcode 0x5B (R80). -/
def execMovEE (s : State) : Result := .next (movRR .e .e s)

/-- MOV E,H, opcode 0x5C (R80). -/
def execMovEH (s : State) : Result := .next (movRR .e .h s)

/-- MOV E,L, opcode 0x5D (R80). -/
def execMovEL (s : State) : Result := .next (movRR .e .l s)

/-- MOV E,M, opcode 0x5E (R81). -/
def execMovEM (s : State) : Result := .next (movRM .e s)

/-- MOV E,A, opcode 0x5F (R80). -/
def execMovEA (s : State) : Result := .next (movRR .e .a s)

/-- MOV H,B, opcode 0x60 (R80). -/
def execMovHB (s : State) : Result := .next (movRR .h .b s)

/-- MOV H,C, opcode 0x61 (R80). -/
def execMovHC (s : State) : Result := .next (movRR .h .c s)

/-- MOV H,D, opcode 0x62 (R80). -/
def execMovHD (s : State) : Result := .next (movRR .h .d s)

/-- MOV H,E, opcode 0x63 (R80). -/
def execMovHE (s : State) : Result := .next (movRR .h .e s)

/-- MOV H,H, opcode 0x64 (R80). -/
def execMovHH (s : State) : Result := .next (movRR .h .h s)

/-- MOV H,L, opcode 0x65 (R80). -/
def execMovHL (s : State) : Result := .next (movRR .h .l s)

/-- MOV H,M, opcode 0x66 (R81). -/
def execMovHM (s : State) : Result := .next (movRM .h s)

/-- MOV H,A, opcode 0x67 (R80). -/
def execMovHA (s : State) : Result := .next (movRR .h .a s)

/-- MOV L,B, opcode 0x68 (R80). -/
def execMovLB (s : State) : Result := .next (movRR .l .b s)

/-- MOV L,C, opcode 0x69 (R80). -/
def execMovLC (s : State) : Result := .next (movRR .l .c s)

/-- MOV L,D, opcode 0x6A (R80). -/
def execMovLD (s : State) : Result := .next (movRR .l .d s)

/-- MOV L,E, opcode 0x6B (R80). -/
def execMovLE (s : State) : Result := .next (movRR .l .e s)

/-- MOV L,H, opcode 0x6C (R80). -/
def execMovLH (s : State) : Result := .next (movRR .l .h s)

/-- MOV L,L, opcode 0x6D (R80). -/
def execMovLL (s : State) : Result := .next (movRR .l .l s)

/-- MOV L,M, opcode 0x6E (R81). -/
def execMovLM (s : State) : Result := .next (movRM .l s)

/-- MOV L,A, opcode 0x6F (R80). -/
def execMovLA (s : State) : Result := .next (movRR .l .a s)

/-- MOV M,B, opcode 0x70 (R82). -/
def execMovMB (s : State) : Result := .next (movMR .b s)

/-- MOV M,C, opcode 0x71 (R82). -/
def execMovMC (s : State) : Result := .next (movMR .c s)

/-- MOV M,D, opcode 0x72 (R82). -/
def execMovMD (s : State) : Result := .next (movMR .d s)

/-- MOV M,E, opcode 0x73 (R82). -/
def execMovME (s : State) : Result := .next (movMR .e s)

/-- MOV M,H, opcode 0x74 (R82). -/
def execMovMH (s : State) : Result := .next (movMR .h s)

/-- MOV M,L, opcode 0x75 (R82). -/
def execMovML (s : State) : Result := .next (movMR .l s)

/-- MOV M,A, opcode 0x77 (R82). -/
def execMovMA (s : State) : Result := .next (movMR .a s)

/-- MOV A,B, opcode 0x78 (R80). -/
def execMovAB (s : State) : Result := .next (movRR .a .b s)

/-- MOV A,C, opcode 0x79 (R80). -/
def execMovAC (s : State) : Result := .next (movRR .a .c s)

/-- MOV A,D, opcode 0x7A (R80). -/
def execMovAD (s : State) : Result := .next (movRR .a .d s)

/-- MOV A,E, opcode 0x7B (R80). -/
def execMovAE (s : State) : Result := .next (movRR .a .e s)

/-- MOV A,H, opcode 0x7C (R80). -/
def execMovAH (s : State) : Result := .next (movRR .a .h s)

/-- MOV A,L, opcode 0x7D (R80). -/
def execMovAL (s : State) : Result := .next (movRR .a .l s)

/-- MOV A,M, opcode 0x7E (R81). -/
def execMovAM (s : State) : Result := .next (movRM .a s)

/-- MOV A,A, opcode 0x7F (R80). -/
def execMovAA (s : State) : Result := .next (movRR .a .a s)

end Sys2Proof.Machine
end

