-- ==== Sys2Proof/Machine/Alu.lean ====
section
/-! DEFINITION. The accumulator ALU family (R90 to R115): one operation over the table of R94, and the meaning of each of its
64 opcodes as a call of it. No form is special-cased, the accumulator with itself included (R90, R96). -/

namespace Sys2Proof.Machine

/-- cin, the Carry flag at the start of the instruction (R91, D7). -/
def State.carryIn (s : State) : Bool := flagIsSet s.flags maskCY

/-- x[A] <- res if the operation writes A (R94). -/
def State.setAcc (s : State) (o : AluOp) (res : Byte) : State := if aluWritesA o then s.setReg .a res else s

/-- The instruction `o src` (R90 to R94): result and flags from A, the operand and the carry as they are in `s`; A written
unless the operation is CMP; the five flags replaced at once, the reserved bits kept. -/
def alu (o : AluOp) (src : Operand) (s : State) : State :=
  ((s.charge (.alu o src)).setAcc o (aluResult o (s.getReg .a) (s.operand src) s.carryIn)).setFlags
    (flagReplace s.flags (aluFlags o (s.getReg .a) (s.operand src) s.carryIn))

/-- ADD B, opcode 0x80 (R100). -/
def execAddB (s : State) : Result := .next (alu .add (.reg .b) s)

/-- ADD C, opcode 0x81 (R100). -/
def execAddC (s : State) : Result := .next (alu .add (.reg .c) s)

/-- ADD D, opcode 0x82 (R100). -/
def execAddD (s : State) : Result := .next (alu .add (.reg .d) s)

/-- ADD E, opcode 0x83 (R100). -/
def execAddE (s : State) : Result := .next (alu .add (.reg .e) s)

/-- ADD H, opcode 0x84 (R100). -/
def execAddH (s : State) : Result := .next (alu .add (.reg .h) s)

/-- ADD L, opcode 0x85 (R100). -/
def execAddL (s : State) : Result := .next (alu .add (.reg .l) s)

/-- ADD M, opcode 0x86 (R101). -/
def execAddM (s : State) : Result := .next (alu .add .mem s)

/-- ADD A, opcode 0x87 (R100). -/
def execAddA (s : State) : Result := .next (alu .add (.reg .a) s)

/-- ADC B, opcode 0x88 (R102). -/
def execAdcB (s : State) : Result := .next (alu .adc (.reg .b) s)

/-- ADC C, opcode 0x89 (R102). -/
def execAdcC (s : State) : Result := .next (alu .adc (.reg .c) s)

/-- ADC D, opcode 0x8A (R102). -/
def execAdcD (s : State) : Result := .next (alu .adc (.reg .d) s)

/-- ADC E, opcode 0x8B (R102). -/
def execAdcE (s : State) : Result := .next (alu .adc (.reg .e) s)

/-- ADC H, opcode 0x8C (R102). -/
def execAdcH (s : State) : Result := .next (alu .adc (.reg .h) s)

/-- ADC L, opcode 0x8D (R102). -/
def execAdcL (s : State) : Result := .next (alu .adc (.reg .l) s)

/-- ADC M, opcode 0x8E (R103). -/
def execAdcM (s : State) : Result := .next (alu .adc .mem s)

/-- ADC A, opcode 0x8F (R102). -/
def execAdcA (s : State) : Result := .next (alu .adc (.reg .a) s)

/-- SUB B, opcode 0x90 (R104). -/
def execSubB (s : State) : Result := .next (alu .sub (.reg .b) s)

/-- SUB C, opcode 0x91 (R104). -/
def execSubC (s : State) : Result := .next (alu .sub (.reg .c) s)

/-- SUB D, opcode 0x92 (R104). -/
def execSubD (s : State) : Result := .next (alu .sub (.reg .d) s)

/-- SUB E, opcode 0x93 (R104). -/
def execSubE (s : State) : Result := .next (alu .sub (.reg .e) s)

/-- SUB H, opcode 0x94 (R104). -/
def execSubH (s : State) : Result := .next (alu .sub (.reg .h) s)

/-- SUB L, opcode 0x95 (R104). -/
def execSubL (s : State) : Result := .next (alu .sub (.reg .l) s)

/-- SUB M, opcode 0x96 (R105). -/
def execSubM (s : State) : Result := .next (alu .sub .mem s)

/-- SUB A, opcode 0x97 (R104). -/
def execSubA (s : State) : Result := .next (alu .sub (.reg .a) s)

/-- SBB B, opcode 0x98 (R106). -/
def execSbbB (s : State) : Result := .next (alu .sbb (.reg .b) s)

/-- SBB C, opcode 0x99 (R106). -/
def execSbbC (s : State) : Result := .next (alu .sbb (.reg .c) s)

/-- SBB D, opcode 0x9A (R106). -/
def execSbbD (s : State) : Result := .next (alu .sbb (.reg .d) s)

/-- SBB E, opcode 0x9B (R106). -/
def execSbbE (s : State) : Result := .next (alu .sbb (.reg .e) s)

/-- SBB H, opcode 0x9C (R106). -/
def execSbbH (s : State) : Result := .next (alu .sbb (.reg .h) s)

/-- SBB L, opcode 0x9D (R106). -/
def execSbbL (s : State) : Result := .next (alu .sbb (.reg .l) s)

/-- SBB M, opcode 0x9E (R107). -/
def execSbbM (s : State) : Result := .next (alu .sbb .mem s)

/-- SBB A, opcode 0x9F (R106). -/
def execSbbA (s : State) : Result := .next (alu .sbb (.reg .a) s)

/-- ANA B, opcode 0xA0 (R108). -/
def execAnaB (s : State) : Result := .next (alu .ana (.reg .b) s)

/-- ANA C, opcode 0xA1 (R108). -/
def execAnaC (s : State) : Result := .next (alu .ana (.reg .c) s)

/-- ANA D, opcode 0xA2 (R108). -/
def execAnaD (s : State) : Result := .next (alu .ana (.reg .d) s)

/-- ANA E, opcode 0xA3 (R108). -/
def execAnaE (s : State) : Result := .next (alu .ana (.reg .e) s)

/-- ANA H, opcode 0xA4 (R108). -/
def execAnaH (s : State) : Result := .next (alu .ana (.reg .h) s)

/-- ANA L, opcode 0xA5 (R108). -/
def execAnaL (s : State) : Result := .next (alu .ana (.reg .l) s)

/-- ANA M, opcode 0xA6 (R109). -/
def execAnaM (s : State) : Result := .next (alu .ana .mem s)

/-- ANA A, opcode 0xA7 (R108). -/
def execAnaA (s : State) : Result := .next (alu .ana (.reg .a) s)

/-- XRA B, opcode 0xA8 (R110). -/
def execXraB (s : State) : Result := .next (alu .xra (.reg .b) s)

/-- XRA C, opcode 0xA9 (R110). -/
def execXraC (s : State) : Result := .next (alu .xra (.reg .c) s)

/-- XRA D, opcode 0xAA (R110). -/
def execXraD (s : State) : Result := .next (alu .xra (.reg .d) s)

/-- XRA E, opcode 0xAB (R110). -/
def execXraE (s : State) : Result := .next (alu .xra (.reg .e) s)

/-- XRA H, opcode 0xAC (R110). -/
def execXraH (s : State) : Result := .next (alu .xra (.reg .h) s)

/-- XRA L, opcode 0xAD (R110). -/
def execXraL (s : State) : Result := .next (alu .xra (.reg .l) s)

/-- XRA M, opcode 0xAE (R111). -/
def execXraM (s : State) : Result := .next (alu .xra .mem s)

/-- XRA A, opcode 0xAF (R110). -/
def execXraA (s : State) : Result := .next (alu .xra (.reg .a) s)

/-- ORA B, opcode 0xB0 (R112). -/
def execOraB (s : State) : Result := .next (alu .ora (.reg .b) s)

/-- ORA C, opcode 0xB1 (R112). -/
def execOraC (s : State) : Result := .next (alu .ora (.reg .c) s)

/-- ORA D, opcode 0xB2 (R112). -/
def execOraD (s : State) : Result := .next (alu .ora (.reg .d) s)

/-- ORA E, opcode 0xB3 (R112). -/
def execOraE (s : State) : Result := .next (alu .ora (.reg .e) s)

/-- ORA H, opcode 0xB4 (R112). -/
def execOraH (s : State) : Result := .next (alu .ora (.reg .h) s)

/-- ORA L, opcode 0xB5 (R112). -/
def execOraL (s : State) : Result := .next (alu .ora (.reg .l) s)

/-- ORA M, opcode 0xB6 (R113). -/
def execOraM (s : State) : Result := .next (alu .ora .mem s)

/-- ORA A, opcode 0xB7 (R112). -/
def execOraA (s : State) : Result := .next (alu .ora (.reg .a) s)

/-- CMP B, opcode 0xB8 (R114). -/
def execCmpB (s : State) : Result := .next (alu .cmp (.reg .b) s)

/-- CMP C, opcode 0xB9 (R114). -/
def execCmpC (s : State) : Result := .next (alu .cmp (.reg .c) s)

/-- CMP D, opcode 0xBA (R114). -/
def execCmpD (s : State) : Result := .next (alu .cmp (.reg .d) s)

/-- CMP E, opcode 0xBB (R114). -/
def execCmpE (s : State) : Result := .next (alu .cmp (.reg .e) s)

/-- CMP H, opcode 0xBC (R114). -/
def execCmpH (s : State) : Result := .next (alu .cmp (.reg .h) s)

/-- CMP L, opcode 0xBD (R114). -/
def execCmpL (s : State) : Result := .next (alu .cmp (.reg .l) s)

/-- CMP M, opcode 0xBE (R115). -/
def execCmpM (s : State) : Result := .next (alu .cmp .mem s)

/-- CMP A, opcode 0xBF (R114). -/
def execCmpA (s : State) : Result := .next (alu .cmp (.reg .a) s)

end Sys2Proof.Machine
end

