-- ==== Sys2Proof/Machine/Unimplemented.lean ====
section
/-! DEFINITION. The 129 opcodes with no modelled behaviour (R68, R125, R126). -/

namespace Sys2Proof.Machine

/-- An unimplemented opcode (R125): no register, flag or memory change; its cost is added and it is reported. It never halts
or faults, 0x76 included (R66, R149). -/
def execUnimplemented (op : Byte) (s : State) : Result := .next ((s.charge (.unimplemented op)).report op)

end Sys2Proof.Machine
end

