-- ==== Sys2Proof/Machine/Step.lean ====
section
/-! DEFINITION. One step: the caller's next call, served by the core. All it does is in Machine/Caller.lean and in the
meanings. -/

namespace Sys2Proof.Machine

/-- One step of the run (R170): one move of the caller or one step of its driver. -/
def step (s : State) : Host.Outcome State Fault Refusal :=
  match nextCall s with
  | .execute i t => exec i t
  | .done t => .next t
  | .refuse r => .refused r

/-- `s` with the instruction of a table word where step fetches its next instruction: its one byte (R60) at the driver's
pc, and no pending move before it. -/
def State.withFetchWord (s : State) (nbits w : Nat) : State := placeOpcode s ((tableBytes nbits w).headD 0x00)

end Sys2Proof.Machine
end

