-- ==== Sys2Proof/Safety.lean ====
section
/-! DEFINITION. What claims about runs are stated in: the invariant of the machine, the caller's moves that are not refused,
and the registers an instruction may write. -/

namespace Sys2Proof.Machine

/-- The invariant of the machine: an admitted configuration, and a memory in canonical form inside its own size. -/
def State.Inv (s : State) : Prop :=
  s.admitted = true ∧ s.mem.wf = true ∧ s.mem.within s.memSize = true

/-- A move inside what the caller owns: every move but a write outside its own memory (R154, U2). -/
def HostMove.allowed (size : Nat) : HostMove → Bool
  | .init _ => true
  | .execute _ => true
  | .inspect => true
  | .poke addr _ => decide (addr < size)

/-- The caller's next move, if one is pending, is allowed. -/
def State.nextAllowed (s : State) : Bool :=
  match s.host with
  | [] => true
  | m :: _ => m.allowed s.memSize

/-- `t` has the parameters, the pending moves and the driver's pc of `s`: all that an `Execute` call never writes. -/
def State.sameAround (s t : State) : Prop :=
  t.oosCost = s.oosCost ∧ t.memSize = s.memSize ∧ t.host = s.host ∧ t.pc = s.pc

/-- The number of one bits of a byte is even: the exclusive OR of its bits is 0 (R8, R92). -/
def evenParity (v : Byte) : Bool :=
  !(v.getLsbD 0 ^^ v.getLsbD 1 ^^ v.getLsbD 2 ^^ v.getLsbD 3 ^^ v.getLsbD 4 ^^ v.getLsbD 5 ^^ v.getLsbD 6 ^^ v.getLsbD 7)

/-- What an ALU instruction with operand `src` leaves beside the registers, for its 8-bit result `res` and its values of CY
and AC (R92, R93, R97, R121): the five flags at the places of R24, the reserved bits of F as before, 4 or 7 cycles more, and
memory, reports and the caller's side as before. -/
def State.aluEffect (s t : State) (src : Operand) (res : Byte) (cy ac : Bool) : Prop :=
  t.flags.getLsbD 7 = cy ∧ t.flags.getLsbD 5 = evenParity res ∧ t.flags.getLsbD 3 = ac ∧
  t.flags.getLsbD 1 = (res == 0x00#8) ∧ t.flags.getLsbD 0 = res.getLsbD 7 ∧
  t.flags &&& 0x54#8 = s.flags &&& 0x54#8 ∧
  t.cycles = s.cycles + (if src = .mem then 7 else 4) ∧
  t.mem = s.mem ∧ t.reports = s.reports ∧ s.sameAround t

/-- The flag bytes an ALU instruction or Init can leave: never Z with S, and never Z without P (R92). -/
def flagsConsistent (f : Byte) : Prop :=
  (f.getLsbD 1 = true → f.getLsbD 0 = false) ∧ (f.getLsbD 1 = true → f.getLsbD 5 = true)

end Sys2Proof.Machine

namespace Sys2Proof

/-- The register an instruction form may write (R22): the destination of MOV r,r' and MOV r,M, A for the ALU operations but
CMP, none for MOV M,r, CMP and the unimplemented opcodes. -/
def Form.destination : Form → Option Reg
  | .movRR dst _ => some dst
  | .movRM dst => some dst
  | .movMR _ => none
  | .alu .cmp _ => none
  | .alu _ _ => some .a
  | .unimplemented _ => none

/-- A form that stores to memory: MOV M,r alone (R42, R44). -/
def Form.stores : Form → Bool
  | .movMR _ => true
  | _ => false

/-- A form that writes the flags: the ALU instructions (R27). -/
def Form.writesFlags : Form → Bool
  | .alu _ _ => true
  | _ => false

/-- A form that reads the flags: ADC and SBB (R27, R91). -/
def Form.readsFlags : Form → Bool
  | .alu .adc _ => true
  | .alu .sbb _ => true
  | _ => false

end Sys2Proof
end

