-- ==== Sys2Proof/Certificates/Slice0/Obligations.lean ====
section
/-! DEFINITION. The statements for the provers. `Instr.ofForm f` is the constructor of Instr with the operands of `f`
(Decode.lean lists them), so a statement over `Form` names every instruction of that shape. -/

open Sys2Proof Sys2Proof.Machine

/-- decodeOperand maps the fields 0 to 7 to B, C, D, E, H, L, M, A, and the register-file indices are B=0 to A=6. The
field codes are the spec's own decision D2, log 1. -/
def Obligations.OperandFieldTable : Prop :=
  decodeOperand 0b000#3 = .reg .b ∧ decodeOperand 0b001#3 = .reg .c ∧ decodeOperand 0b010#3 = .reg .d ∧
  decodeOperand 0b011#3 = .reg .e ∧ decodeOperand 0b100#3 = .reg .h ∧ decodeOperand 0b101#3 = .reg .l ∧
  decodeOperand 0b110#3 = .mem ∧ decodeOperand 0b111#3 = .reg .a ∧
  Reg.index .b = 0 ∧ Reg.index .c = 1 ∧ Reg.index .d = 2 ∧ Reg.index .e = 3 ∧ Reg.index .h = 4 ∧
  Reg.index .l = 5 ∧ Reg.index .a = 6

/-- Opcodes written out from the patterns of the spec decode to MOV A,B; MOV A,M; MOV M,A; ADD B; ADC M; SUB A; SBB L;
ANA C; XRA E; ORA H; CMP D; and 0x00, 0x76, 0xFF are unimplemented. The opcode values are the Intel 8080 map the
spec adopts by D1 and D2 (log 1). -/
def Obligations.SampleOpcodesDecode : Prop :=
  decode [0b01111000#8] = .ok (.movAB, []) ∧ decode [0b01111110#8] = .ok (.movAM, []) ∧
  decode [0b01110111#8] = .ok (.movMA, []) ∧ decode [0b10000000#8] = .ok (.addB, []) ∧
  decode [0b10001110#8] = .ok (.adcM, []) ∧ decode [0b10010111#8] = .ok (.subA, []) ∧
  decode [0b10011101#8] = .ok (.sbbL, []) ∧ decode [0b10100001#8] = .ok (.anaC, []) ∧
  decode [0b10101011#8] = .ok (.xraE, []) ∧ decode [0b10110100#8] = .ok (.oraH, []) ∧
  decode [0b10111010#8] = .ok (.cmpD, []) ∧ decode [0x00#8] = .ok (.unimplemented 0x00#8, []) ∧
  decode [0x76#8] = .ok (.unimplemented 0x76#8, []) ∧ decode [0xFF#8] = .ok (.unimplemented 0xFF#8, [])

/-- For all fields: 01 110 110 is unimplemented; 01 110 sss is MOV M,r; 01 ddd 110 is MOV r,M; otherwise 01 ddd sss is
MOV r,r'; 10 ooo sss is the operation ooo on the operand sss, with ooo = 0 to 7 for ADD, ADC, SUB, SBB, ANA, XRA,
ORA, CMP. The opcode values are the Intel 8080 map the spec adopts by D1 and D2 (log 1). -/
def Obligations.PatternsDecodeByFields : Prop :=
  (∀ x y : BitVec 3, decodeByte (0b01#2 ++ x ++ y) =
    match decodeOperand x, decodeOperand y with
    | .mem, .mem => .unimplemented 0x76#8
    | .mem, .reg src => Instr.ofForm (.movMR src)
    | .reg dst, .mem => Instr.ofForm (.movRM dst)
    | .reg dst, .reg src => Instr.ofForm (.movRR dst src)) ∧
  (∀ y : BitVec 3,
    decodeByte (0b10000#5 ++ y) = Instr.ofForm (.alu .add (decodeOperand y)) ∧
    decodeByte (0b10001#5 ++ y) = Instr.ofForm (.alu .adc (decodeOperand y)) ∧
    decodeByte (0b10010#5 ++ y) = Instr.ofForm (.alu .sub (decodeOperand y)) ∧
    decodeByte (0b10011#5 ++ y) = Instr.ofForm (.alu .sbb (decodeOperand y)) ∧
    decodeByte (0b10100#5 ++ y) = Instr.ofForm (.alu .ana (decodeOperand y)) ∧
    decodeByte (0b10101#5 ++ y) = Instr.ofForm (.alu .xra (decodeOperand y)) ∧
    decodeByte (0b10110#5 ++ y) = Instr.ofForm (.alu .ora (decodeOperand y)) ∧
    decodeByte (0b10111#5 ++ y) = Instr.ofForm (.alu .cmp (decodeOperand y)))

/-- decodeByte op is an unimplemented instruction exactly for op at most 0x3F, at least 0xC0, or 0x76; it then carries
op itself; there are 129 such opcodes. -/
def Obligations.UnimplementedOpcodesAreTheOther129 : Prop :=
  (∀ op : Byte, decodeByte op = .unimplemented op ↔ (op.toNat ≤ 0x3F ∨ 0xC0 ≤ op.toNat ∨ op = 0x76#8)) ∧
  (∀ op op' : Byte, decodeByte op = .unimplemented op' → op' = op) ∧
  ((List.range 256).filter fun n => unimplementedOpcode (BitVec.ofNat 8 n)).length = 129

/-- For every instruction i of the table (every operand at every value, every unimplemented opcode) and every following
byte sequence, decode (encode i ++ rest) is i with rest left over. The opcode values are the Intel 8080 map the spec
adopts by D1 and D2 (log 1). -/
def Obligations.DecodeOfEncodeIsIdentity : Prop :=
  ∀ (i : Instr) (rest : List Byte), i.wellFormed = true → decode (encode i ++ rest) = .ok (i, rest)

/-- For every byte op and every rest, decode (op :: rest) gives a well-formed instruction whose encoding is [op] and
leaves rest; only the empty sequence is rejected. -/
def Obligations.EncodeOfDecodeIsIdentity : Prop :=
  (∀ (op : Byte) (rest : List Byte), decode (op :: rest) = .ok (decodeByte op, rest) ∧
    encode (decodeByte op) = [op] ∧ (decodeByte op).wellFormed = true) ∧
  decode [] = .error .noOpcodeByte

/-- For all register files, registers and bytes: after write(r, v), read(r) is v and read(q) is as before for every
other q; the reads determine the register file, and there are exactly seven register names. -/
def Obligations.RegisterWriteTouchesOneRegister : Prop :=
  (∀ (x : RegFile) (r q : Reg) (v : Byte), (x.write r v).read q = if q = r then v else x.read q) ∧
  (∀ x y : RegFile, (∀ r : Reg, x.read r = y.read r) → x = y) ∧
  (∀ r : Reg, r ∈ [Reg.b, .c, .d, .e, .h, .l, .a])

/-- is_set on the masks Carry=0x80, Parity=0x20, AuxCarry=0x08, Zero=0x02, Sign=0x01 reads bits 7, 5, 3, 1, 0 of F, and
the packed flag byte holds each flag at its place and zeros at bits 6, 4 and 2. -/
def Obligations.FlagMaskLayout : Prop :=
  maskCY = 0x80#8 ∧ maskP = 0x20#8 ∧ maskAC = 0x08#8 ∧ maskZ = 0x02#8 ∧ maskS = 0x01#8 ∧
  (∀ f : Byte, flagIsSet f maskCY = f.getLsbD 7 ∧ flagIsSet f maskP = f.getLsbD 5 ∧
    flagIsSet f maskAC = f.getLsbD 3 ∧ flagIsSet f maskZ = f.getLsbD 1 ∧ flagIsSet f maskS = f.getLsbD 0) ∧
  (∀ cy p ac z s : Bool, (packFlags cy p ac z s).getLsbD 7 = cy ∧ (packFlags cy p ac z s).getLsbD 5 = p ∧
    (packFlags cy p ac z s).getLsbD 3 = ac ∧ (packFlags cy p ac z s).getLsbD 1 = z ∧
    (packFlags cy p ac z s).getLsbD 0 = s ∧ packFlags cy p ac z s &&& 0x54#8 = 0x00#8)

/-- For every F, mask or value, and bit n of a byte: set gives 1 where the mask is 1, clear gives 0 there, both keep the
other bits; replace keeps bits 6, 4 and 2 of F and takes the other bits of the value. That replace keeps the
reserved bits is the spec's reading C8, log 14. -/
def Obligations.FlagOperationsBitByBit : Prop :=
  ∀ (f m : Byte) (n : Nat), n < 8 →
  (flagSet f m).getLsbD n = (f.getLsbD n || m.getLsbD n) ∧
  (flagClear f m).getLsbD n = (f.getLsbD n && !m.getLsbD n) ∧
  (flagReplace f m).getLsbD n = (if n = 6 ∨ n = 4 ∨ n = 2 then f.getLsbD n else m.getLsbD n)

/-- For every state, the effective address is the concatenation of H and L, as a number 256 times H plus L, and its two
halves are H and L. -/
def Obligations.EffectiveAddressIsConcatenation : Prop :=
  ∀ s : State, s.hl.toNat = 256 * (s.regs.read .h).toNat + (s.regs.read .l).toNat ∧
  s.hl.extractLsb' 8 8 = s.regs.read .h ∧ s.hl.extractLsb' 0 8 = s.regs.read .l

/-- For memories in canonical form, agreement of every read makes the two lists equal. The canonical form is the model's
choice, log 6. -/
def Obligations.EqualReadsAreEqualMemories : Prop :=
  ∀ m m' : Memory, m.wf = true → m'.wf = true → (∀ a : Nat, m.read a = m'.read a) → m = m'

/-- For all registers dst and src and every state, exec of MOV dst,src answers the state in which x[dst] is the old
x[src], cycles are 5 more, and every other register, F, all of memory and everything else are as before. -/
def Obligations.MovRegisterToRegister : Prop :=
  ∀ (dst src : Reg) (s : State), exec (Instr.ofForm (.movRR dst src)) s =
  .next { s with regs := s.regs.write dst (s.regs.read src), cycles := s.cycles + 5 }

/-- For each of the seven registers and every state, MOV r,r answers the same state with 5 more cycles. -/
def Obligations.MovSameRegisterIsIdentity : Prop :=
  ∀ (r : Reg) (s : State), exec (Instr.ofForm (.movRR r r)) s = .next { s with cycles := s.cycles + 5 }

/-- For every destination, H and L included, and every state, exec of MOV dst,M answers the state in which x[dst] is the
byte that memory held at 256 * H + L of the state before, cycles are 7 more, and all else is as before. -/
def Obligations.MovFromMemory : Prop :=
  ∀ (dst : Reg) (s : State), exec (Instr.ofForm (.movRM dst)) s =
  .next { s with
    regs := s.regs.write dst (s.mem.read (256 * (s.regs.read .h).toNat + (s.regs.read .l).toNat)),
    cycles := s.cycles + 7 }

/-- For every source, H and L included, and every state, exec of MOV M,src answers a state whose byte at 256 * H + L is
the old x[src] and whose every other byte reads as before; registers, F, reports and the caller's side are
unchanged; cycles are 7 more. That the cost 7 covers MOV M,r is the spec's reading D27. -/
def Obligations.MovToMemory : Prop :=
  ∀ (src : Reg) (s : State), ∃ t : State, exec (Instr.ofForm (.movMR src)) s = .next t ∧
  (∀ a : Nat, t.mem.read a =
    if a = 256 * (s.regs.read .h).toNat + (s.regs.read .l).toNat then s.regs.read src else s.mem.read a) ∧
  t.regs = s.regs ∧ t.flags = s.flags ∧ t.cycles = s.cycles + 7 ∧ t.reports = s.reports ∧ s.sameAround t

/-- For all registers src and dst and every state, MOV M,src and then MOV dst,M both complete, and x[dst] is then the
x[src] of the start. -/
def Obligations.StoreThenLoadGivesTheByte : Prop :=
  ∀ (src dst : Reg) (s : State), ∃ t u : State, exec (Instr.ofForm (.movMR src)) s = .next t ∧
  exec (Instr.ofForm (.movRM dst)) t = .next u ∧ u.regs.read dst = s.regs.read src

/-- For every MOV form and every state, exec answers a next state with the same F; MOV r,r' and MOV r,M keep every
register but the destination; MOV M,r keeps all registers. -/
def Obligations.MovNeverFailsNorWritesFlags : Prop :=
  (∀ (dst src : Reg) (s : State), ∃ t : State, exec (Instr.ofForm (.movRR dst src)) s = .next t ∧
    t.flags = s.flags ∧ ∀ r : Reg, r ≠ dst → t.regs.read r = s.regs.read r) ∧
  (∀ (dst : Reg) (s : State), ∃ t : State, exec (Instr.ofForm (.movRM dst)) s = .next t ∧
    t.flags = s.flags ∧ ∀ r : Reg, r ≠ dst → t.regs.read r = s.regs.read r) ∧
  (∀ (src : Reg) (s : State), ∃ t : State, exec (Instr.ofForm (.movMR src)) s = .next t ∧
    t.flags = s.flags ∧ ∀ r : Reg, t.regs.read r = s.regs.read r)

/-- For every operand (each register and M) and every state, ADD answers a next state with A = (A + b) mod 256, CY = (A
+ b > 0xFF), AC = (low nibbles sum above 0xF). F holds Z, S and P of that result, its reserved bits are kept; 4
cycles more for a register operand and 7 for M; no other register, no memory byte and nothing else changes. -/
def Obligations.AddResultAndFlags : Prop :=
  ∀ (src : Operand) (s : State), ∃ t : State, exec (Instr.ofForm (.alu .add src)) s = .next t ∧
  t.regs = s.regs.write .a ((s.regs.read .a) + (s.operand src)) ∧
  s.aluEffect t src ((s.regs.read .a) + (s.operand src))
    (decide ((s.regs.read .a).toNat + (s.operand src).toNat > 0xFF))
    (decide ((s.regs.read .a).toNat % 16 + (s.operand src).toNat % 16 > 0xF))

/-- For every operand and every state, ADC answers a next state with A = (A + b + cin) mod 256, CY = (A + b + cin >
0xFF), AC = (nibble sum with cin above 0xF), cin being bit 7 of F at the start (the spec's decision D7; no early
truncation D8). F holds Z, S and P of that result, its reserved bits are kept; 4 cycles more for a register operand
and 7 for M; no other register, no memory byte and nothing else changes. -/
def Obligations.AdcResultAndFlags : Prop :=
  ∀ (src : Operand) (s : State), ∃ t : State, exec (Instr.ofForm (.alu .adc src)) s = .next t ∧
  t.regs = s.regs.write .a (BitVec.ofNat 8 ((s.regs.read .a).toNat + (s.operand src).toNat + (s.flags.getLsbD 7).toNat)) ∧
  s.aluEffect t src (BitVec.ofNat 8 ((s.regs.read .a).toNat + (s.operand src).toNat + (s.flags.getLsbD 7).toNat))
    (decide ((s.regs.read .a).toNat + (s.operand src).toNat + (s.flags.getLsbD 7).toNat > 0xFF))
    (decide ((s.regs.read .a).toNat % 16 + (s.operand src).toNat % 16 + (s.flags.getLsbD 7).toNat > 0xF))

/-- For every operand and every state, SUB answers a next state with A = (A - b) mod 256, CY = (b > A), AC = (low nibble
of A below that of b). F holds Z, S and P of that result, its reserved bits are kept; 4 cycles more for a register
operand and 7 for M; no other register, no memory byte and nothing else changes. -/
def Obligations.SubResultAndFlags : Prop :=
  ∀ (src : Operand) (s : State), ∃ t : State, exec (Instr.ofForm (.alu .sub src)) s = .next t ∧
  t.regs = s.regs.write .a ((s.regs.read .a) - (s.operand src)) ∧
  s.aluEffect t src ((s.regs.read .a) - (s.operand src))
    (decide ((s.regs.read .a).toNat < (s.operand src).toNat))
    (decide ((s.regs.read .a).toNat % 16 < (s.operand src).toNat % 16))

/-- For every operand and every state, SBB answers a next state with A = (A - b - cin) mod 256, CY = (b + cin > A), AC =
(low nibble of A below that of b plus cin), cin being bit 7 of F at the start (D7), with no intermediate truncation
(D8); log 7, log 8. F holds Z, S and P of that result, its reserved bits are kept; 4 cycles more for a register
operand and 7 for M; no other register, no memory byte and nothing else changes. -/
def Obligations.SbbResultAndFlags : Prop :=
  ∀ (src : Operand) (s : State), ∃ t : State, exec (Instr.ofForm (.alu .sbb src)) s = .next t ∧
  t.regs = s.regs.write .a (BitVec.ofInt 8 (((s.regs.read .a).toNat : Int) - (s.operand src).toNat - (s.flags.getLsbD 7).toNat)) ∧
  s.aluEffect t src (BitVec.ofInt 8 (((s.regs.read .a).toNat : Int) - (s.operand src).toNat - (s.flags.getLsbD 7).toNat))
    (decide ((s.regs.read .a).toNat < (s.operand src).toNat + (s.flags.getLsbD 7).toNat))
    (decide ((s.regs.read .a).toNat % 16 < (s.operand src).toNat % 16 + (s.flags.getLsbD 7).toNat))

/-- For every operand and every state, ANA answers a next state with A = A AND b, CY = 0 and AC = 0. F holds Z, S and P
of that result, its reserved bits are kept; 4 cycles more for a register operand and 7 for M; no other register, no
memory byte and nothing else changes. -/
def Obligations.AnaResultAndFlags : Prop :=
  ∀ (src : Operand) (s : State), ∃ t : State, exec (Instr.ofForm (.alu .ana src)) s = .next t ∧
  t.regs = s.regs.write .a ((s.regs.read .a) &&& (s.operand src)) ∧
  s.aluEffect t src ((s.regs.read .a) &&& (s.operand src))
    false
    false

/-- For every operand and every state, XRA answers a next state with A = A exclusive OR b, CY = 0 and AC = 0. F holds Z,
S and P of that result, its reserved bits are kept; 4 cycles more for a register operand and 7 for M; no other
register, no memory byte and nothing else changes. -/
def Obligations.XraResultAndFlags : Prop :=
  ∀ (src : Operand) (s : State), ∃ t : State, exec (Instr.ofForm (.alu .xra src)) s = .next t ∧
  t.regs = s.regs.write .a ((s.regs.read .a) ^^^ (s.operand src)) ∧
  s.aluEffect t src ((s.regs.read .a) ^^^ (s.operand src))
    false
    false

/-- For every operand and every state, ORA answers a next state with A = A OR b, CY = 0 and AC = 0. F holds Z, S and P
of that result, its reserved bits are kept; 4 cycles more for a register operand and 7 for M; no other register, no
memory byte and nothing else changes. -/
def Obligations.OraResultAndFlags : Prop :=
  ∀ (src : Operand) (s : State), ∃ t : State, exec (Instr.ofForm (.alu .ora src)) s = .next t ∧
  t.regs = s.regs.write .a ((s.regs.read .a) ||| (s.operand src)) ∧
  s.aluEffect t src ((s.regs.read .a) ||| (s.operand src))
    false
    false

/-- For every operand and every state, CMP answers a next state with every register unchanged and CY = (b > A), AC =
(low nibble of A below that of b), Z, S and P of (A - b) mod 256. F holds Z, S and P of that result, its reserved
bits are kept; 4 cycles more for a register operand and 7 for M; no other register, no memory byte and nothing else
changes. -/
def Obligations.CmpFlagsWithoutResult : Prop :=
  ∀ (src : Operand) (s : State), ∃ t : State, exec (Instr.ofForm (.alu .cmp src)) s = .next t ∧
  t.regs = s.regs ∧
  s.aluEffect t src ((s.regs.read .a) - (s.operand src))
    (decide ((s.regs.read .a).toNat < (s.operand src).toNat))
    (decide ((s.regs.read .a).toNat % 16 < (s.operand src).toNat % 16))

/-- For every operation, operand and state, exec completes; for an operation that stores its result, Z, S and P of the
new F are those of the new A; for CMP they are those of (A - operand) mod 256, which is not stored. -/
def Obligations.CommonFlagsOfTheResult : Prop :=
  ∀ (o : AluOp) (src : Operand) (s : State), ∃ t : State, exec (Instr.ofForm (.alu o src)) s = .next t ∧
  (o ≠ .cmp → t.flags.getLsbD 1 = (t.regs.read .a == 0x00#8) ∧ t.flags.getLsbD 0 = (t.regs.read .a).getLsbD 7 ∧
    t.flags.getLsbD 5 = evenParity (t.regs.read .a)) ∧
  (o = .cmp → t.regs.read .a = s.regs.read .a ∧
    t.flags.getLsbD 1 = (s.regs.read .a - s.operand src == 0x00#8) ∧
    t.flags.getLsbD 0 = (s.regs.read .a - s.operand src).getLsbD 7 ∧
    t.flags.getLsbD 5 = evenParity (s.regs.read .a - s.operand src))

/-- For every operation, operand and state, the new F is (F & 0x54) | CY<<7 | P<<5 | AC<<3 | Z<<1 | S for the
operation's five one-bit values; and two states that differ in F alone but for the carry get the same five flags, so
none of them is left over. -/
def Obligations.AluReplacesAllFiveFlags : Prop :=
  (∀ (o : AluOp) (src : Operand) (s : State), ∃ t : State, exec (Instr.ofForm (.alu o src)) s = .next t ∧
    ∃ cy p ac z n : Bool, t.flags = (s.flags &&& 0x54#8) ||| (if cy then 0x80#8 else 0x00#8) |||
      (if p then 0x20#8 else 0x00#8) ||| (if ac then 0x08#8 else 0x00#8) ||| (if z then 0x02#8 else 0x00#8) |||
      (if n then 0x01#8 else 0x00#8) ∧
      cy = aluCarry o (s.regs.read .a) (s.operand src) (s.flags.getLsbD 7) ∧
      ac = aluAux o (s.regs.read .a) (s.operand src) (s.flags.getLsbD 7) ∧
      p = evenParity (aluResult o (s.regs.read .a) (s.operand src) (s.flags.getLsbD 7)) ∧
      z = (aluResult o (s.regs.read .a) (s.operand src) (s.flags.getLsbD 7) == 0x00#8) ∧
      n = (aluResult o (s.regs.read .a) (s.operand src) (s.flags.getLsbD 7)).getLsbD 7) ∧
  (∀ (o : AluOp) (src : Operand) (s : State) (f : Byte), f.getLsbD 7 = s.flags.getLsbD 7 →
    ∃ t u : State, exec (Instr.ofForm (.alu o src)) s = .next t ∧
      exec (Instr.ofForm (.alu o src)) { s with flags := f } = .next u ∧
      u.flags &&& 0xAB#8 = t.flags &&& 0xAB#8)

/-- For every instruction and state, exec completes with F & 0x54 as before; set and clear with masks inside the five
meaningful bits, and replace with any value, keep F & 0x54; Init leaves F & 0x54 = 0. -/
def Obligations.ReservedFlagBitsNeverChange : Prop :=
  (∀ (i : Instr) (s : State), ∃ t : State, exec i s = .next t ∧ t.flags &&& 0x54#8 = s.flags &&& 0x54#8) ∧
  (∀ f m : Byte, m &&& 0x54#8 = 0x00#8 →
    flagSet f m &&& 0x54#8 = f &&& 0x54#8 ∧ flagClear f m &&& 0x54#8 = f &&& 0x54#8) ∧
  (∀ f v : Byte, flagReplace f v &&& 0x54#8 = f &&& 0x54#8) ∧
  (∀ (s : State) (v : Option (Vector Byte 7)), (s.init v).flags &&& 0x54#8 = 0x00#8)

/-- For every instruction, state and other flag byte f: an instruction that is not an ALU instruction leaves F as it is
and an ALU instruction writes it by one replace; run with F replaced by f, an instruction other than ADC and SBB
gives the same registers, memory, cycles and reports, and the same five flags if it is an ALU instruction; ADC and
SBB do so whenever f has the same CY, and with CY set and CY clear they give different results. -/
def Obligations.FlagWritersAndReaders : Prop :=
  (∀ (i : Instr) (s : State), ∃ t : State, exec i s = .next t ∧
    (i.form.writesFlags = false → t.flags = s.flags) ∧
    (i.form.writesFlags = true → ∃ v : Byte, t.flags = flagReplace s.flags v)) ∧
  (∀ (i : Instr) (s : State) (f : Byte), i.form.readsFlags = false ∨ f.getLsbD 7 = s.flags.getLsbD 7 →
    ∃ t u : State, exec i s = .next t ∧ exec i { s with flags := f } = .next u ∧
      u.regs = t.regs ∧ u.mem = t.mem ∧ u.cycles = t.cycles ∧ u.reports = t.reports ∧
      (i.form.writesFlags = true → u.flags &&& 0xAB#8 = t.flags &&& 0xAB#8)) ∧
  (∀ (src : Operand) (s : State) (f g : Byte), f.getLsbD 7 = false → g.getLsbD 7 = true →
    (∃ t u : State, exec (Instr.ofForm (.alu .adc src)) { s with flags := f } = .next t ∧
      exec (Instr.ofForm (.alu .adc src)) { s with flags := g } = .next u ∧ t.regs.read .a ≠ u.regs.read .a) ∧
    (∃ t u : State, exec (Instr.ofForm (.alu .sbb src)) { s with flags := f } = .next t ∧
      exec (Instr.ofForm (.alu .sbb src)) { s with flags := g } = .next u ∧ t.regs.read .a ≠ u.regs.read .a))

/-- For every state, with A and F of its start: SUB A and XRA A give A = 0 and F = (F & 0x54) | 0x22; CMP A keeps A with
the same F; SBB A gives that when CY = 0, and A = 0xFF with F = (F & 0x54) | 0xA9 when CY = 1; ADD A gives 2A mod
256 with CY = A[7] and AC = A[3]; ADC A gives 2A + CY mod 256 with CY = A[7] and AC by the nibble sum; ANA A and ORA
A keep A, clear CY and AC, and take Z, S and P from A. -/
def Obligations.AccumulatorWithItself : Prop :=
  ∀ s : State,
  (∃ t : State, exec .subA s = .next t ∧ t.regs = s.regs.write .a 0x00#8 ∧ t.flags = (s.flags &&& 0x54#8) ||| 0x22#8) ∧
  (∃ t : State, exec .xraA s = .next t ∧ t.regs = s.regs.write .a 0x00#8 ∧ t.flags = (s.flags &&& 0x54#8) ||| 0x22#8) ∧
  (∃ t : State, exec .cmpA s = .next t ∧ t.regs = s.regs ∧ t.flags = (s.flags &&& 0x54#8) ||| 0x22#8) ∧
  (∃ t : State, exec .sbbA s = .next t ∧
    (s.flags.getLsbD 7 = false → t.regs = s.regs.write .a 0x00#8 ∧ t.flags = (s.flags &&& 0x54#8) ||| 0x22#8) ∧
    (s.flags.getLsbD 7 = true → t.regs = s.regs.write .a 0xFF#8 ∧ t.flags = (s.flags &&& 0x54#8) ||| 0xA9#8)) ∧
  (∃ t : State, exec .addA s = .next t ∧ t.regs.read .a = s.regs.read .a <<< 1 ∧
    t.flags.getLsbD 7 = (s.regs.read .a).getLsbD 7 ∧ t.flags.getLsbD 3 = (s.regs.read .a).getLsbD 3) ∧
  (∃ t : State, exec .adcA s = .next t ∧
    t.regs.read .a = (s.regs.read .a <<< 1) ||| (if s.flags.getLsbD 7 then 0x01#8 else 0x00#8) ∧
    t.flags.getLsbD 7 = (s.regs.read .a).getLsbD 7 ∧
    t.flags.getLsbD 3 = decide (2 * ((s.regs.read .a).toNat % 16) + (s.flags.getLsbD 7).toNat > 0xF)) ∧
  (∃ t : State, exec .anaA s = .next t ∧ t.regs = s.regs ∧ s.aluEffect t (.reg .a) (s.regs.read .a) false false) ∧
  (∃ t : State, exec .oraA s = .next t ∧ t.regs = s.regs ∧ s.aluEffect t (.reg .a) (s.regs.read .a) false false)

/-- For every operand and state, CMP and SUB on it both complete, and CMP's next state is SUB's with the registers of
the start: same flags, memory, cycles and all else. -/
def Obligations.CompareIsSubtractWithoutStore : Prop :=
  ∀ (src : Operand) (s : State), ∃ t : State, exec (Instr.ofForm (.alu .sub src)) s = .next t ∧
  exec (Instr.ofForm (.alu .cmp src)) s = .next { t with regs := s.regs }

/-- For every operand and every state whose CY is 0, ADC answers the next state of ADD and SBB that of SUB. -/
def Obligations.CarryClearMakesAdcAddAndSbbSub : Prop :=
  ∀ (src : Operand) (s : State), s.flags.getLsbD 7 = false →
  (∃ t : State, exec (Instr.ofForm (.alu .adc src)) s = .next t ∧ exec (Instr.ofForm (.alu .add src)) s = .next t) ∧
  (∃ t : State, exec (Instr.ofForm (.alu .sbb src)) s = .next t ∧ exec (Instr.ofForm (.alu .sub src)) s = .next t)

/-- For every instruction and state, exec answers a next state; for every state and fault, step does not answer that
fault. The core has no exception and the step function has no fault outcome. -/
def Obligations.ExecNeverFails : Prop :=
  (∀ (i : Instr) (s : State), ∃ t : State, exec i s = .next t) ∧ (∀ (s : State) (r : Fault), step s ≠ .fault r)

/-- For every instruction, state and register r: exec completes, and if r is not the instruction's destination, x[r] is
as before. MOV M,r, CMP and unimplemented opcodes have none. -/
def Obligations.OnlyTheDestinationRegisterChanges : Prop :=
  ∀ (i : Instr) (s : State), ∃ t : State, exec i s = .next t ∧
  ∀ r : Reg, i.form.destination ≠ some r → t.regs.read r = s.regs.read r

/-- For every instruction and state, exec completes; a form other than MOV M,r leaves every byte as it was; MOV M,r
leaves every byte but the one at HL; no instruction changes a cell at 0x10000 or above. -/
def Obligations.OnlyMovToMemoryWritesMemory : Prop :=
  ∀ (i : Instr) (s : State), ∃ t : State, exec i s = .next t ∧
  (i.form.stores = false → ∀ a : Nat, t.mem.read a = s.mem.read a) ∧
  (i.form.stores = true → ∀ a : Nat, a ≠ s.hl.toNat → t.mem.read a = s.mem.read a) ∧
  (∀ a : Nat, 0x10000 ≤ a → t.mem.read a = s.mem.read a)

/-- For every instruction, state and other memory that holds the same byte at HL, the two runs give the same registers,
flags, cycles and reports. -/
def Obligations.MemoryIsReadOnlyAtHL : Prop :=
  ∀ (i : Instr) (s : State) (m : Memory), m.read s.hl.toNat = s.mem.read s.hl.toNat →
  ∃ t u : State, exec i s = .next t ∧ exec i { s with mem := m } = .next u ∧
    u.regs = t.regs ∧ u.flags = t.flags ∧ u.cycles = t.cycles ∧ u.reports = t.reports

/-- For every instruction, state and opcode, exec completes with the same CT[op]; a step that answers a next state keeps
every CT[op]; Init leaves CT with the fixed costs and the parameter OOS_COST. -/
def Obligations.CycleTableIsNeverMutated : Prop :=
  (∀ (i : Instr) (s : State), ∃ t : State, exec i s = .next t ∧
    ∀ op : Byte, cycleTable t.oosCost op = cycleTable s.oosCost op) ∧
  (∀ s t : State, step s = .next t → ∀ op : Byte, cycleTable t.oosCost op = cycleTable s.oosCost op) ∧
  (∀ (s : State) (v : Option (Vector Byte 7)) (op : Byte),
    cycleTable (s.init v).oosCost op = cycleTable s.oosCost op)

/-- For every instruction and state, exec completes and the pending moves, the driver's pc, MEM_SIZE and OOS_COST are as
before. The fields that hold the caller's side are the model's, log 9. -/
def Obligations.ExecLeavesTheCallersSideAlone : Prop :=
  ∀ (i : Instr) (s : State), ∃ t : State, exec i s = .next t ∧ s.sameAround t

/-- For every OOS_COST: CT of an opcode that decodes to MOV r,r' is 5, MOV r,M 7, MOV M,r 7, an ALU form on a register
4, on M 7, and for an unimplemented op it is OOS_COST[op]; with nothing listed that is 0. The default is D4 and the
cost of MOV M,r D27. -/
def Obligations.CycleCostsByForm : Prop :=
  ∀ (costs : OosCost) (op : Byte), cycleTable costs op =
    (match (decodeByte op).form with
     | .movRR _ _ => 5
     | .movRM _ => 7
     | .movMR _ => 7
     | .alu _ (.reg _) => 4
     | .alu _ .mem => 7
     | .unimplemented _ => oosCostOf costs op) ∧
  oosCostOf [] op = 0 ∧ (∀ n : Nat, oosCostOf [(op, n)] op = n)

/-- For every opcode byte and state, exec of the decoded instruction completes with cycles = old cycles + CT[op]. -/
def Obligations.ExecuteAddsTheTabulatedCost : Prop :=
  ∀ (op : Byte) (s : State), ∃ t : State, exec (decodeByte op) s = .next t ∧
  t.cycles = s.cycles + cycleTable s.oosCost op

/-- For every instruction, state, counter value and OOS_COST, the run with those replaced gives the same registers,
flags, memory and reports. -/
def Obligations.ResultsDoNotDependOnCycles : Prop :=
  ∀ (i : Instr) (s : State) (n : Nat) (costs : OosCost),
  ∃ t u : State, exec i s = .next t ∧ exec i { s with cycles := n, oosCost := costs } = .next u ∧
    u.regs = t.regs ∧ u.flags = t.flags ∧ u.mem = t.mem ∧ u.reports = t.reports

/-- For every op and state, exec of the unimplemented instruction answers the same state with OOS_COST[op] more cycles
and op reported: registers, F and memory unchanged. Holding the reports in State is log 11, OOS_COST as data log 4. -/
def Obligations.UnimplementedCountsAndReportsOnly : Prop :=
  ∀ (op : Byte) (s : State), exec (.unimplemented op) s =
  .next { s with cycles := s.cycles + oosCostOf s.oosCost op, reports := s.reports ++ [op] }

/-- For every opcode byte and state, exec of the decoded instruction completes, and the reports grow by op exactly if op
is one of the 129, else not at all. -/
def Obligations.ReportsComeFromUnimplementedOpcodesOnly : Prop :=
  ∀ (op : Byte) (s : State), ∃ t : State, exec (decodeByte op) s = .next t ∧
  t.reports = s.reports ++ (if unimplementedOpcode op = true then [op] else [])

/-- In an admitted configuration with no pending move, when the byte at pc decodes to i, step is exec of i at the state
with pc + 1 mod 65536. The driver is the spec's D11; that the caller runs it when no move is pending is log 9. -/
def Obligations.DriverStepRunsTheDecodedInstruction : Prop :=
  ∀ (s : State) (i : Instr) (rest : List Byte), s.admitted = true → s.host = [] →
  decode [s.mem.read s.pc.toNat] = .ok (i, rest) → step s = exec i { s with pc := s.pc + 1#16 }

/-- In an admitted configuration whose oldest pending move is Execute(op), when op decodes to i, step is exec of i at
the state without that move. The queue of moves is log 9. -/
def Obligations.ExecuteMoveRunsTheDecodedInstruction : Prop :=
  ∀ (s : State) (op : Byte) (i : Instr) (rest : List HostMove) (out : List Byte), s.admitted = true →
  s.host = .execute op :: rest → decode [op] = .ok (i, out) → step s = exec i { s with host := rest }

/-- In an admitted configuration: a pending Init gives the initialised state; a pending inspection the same state; a
pending write of v at an address a inside MEM_SIZE a state whose memory reads v at a and as before at every other
address, all else as before; each without the move. The queue of moves is log 9. -/
def Obligations.CallerMovesOtherThanExecute : Prop :=
  ∀ (s : State) (rest : List HostMove), s.admitted = true →
  (∀ v : Option (Vector Byte 7), s.host = .init v :: rest → step s = .next ({ s with host := rest }.init v)) ∧
  (s.host = .inspect :: rest → step s = .next { s with host := rest }) ∧
  (∀ (a : Nat) (v : Byte), s.host = .poke a v :: rest → a < s.memSize →
    ∃ t : State, step s = .next t ∧ (∀ b : Nat, t.mem.read b = if b = a then v else s.mem.read b) ∧
      t = { s with host := rest, mem := t.mem })

/-- A state with MEM_SIZE below 65,536 is refused by that name; with MEM_SIZE large enough but no unimplemented opcode
of cost 0, by that name; in an admitted configuration a pending write at or above MEM_SIZE, by that name. The first
two rest on log 5 and log 4; the third is the model's own choice, log 22 (the spec leaves a bound violation to the
collaborator). -/
def Obligations.RefusedConfigurationsAndMoves : Prop :=
  (∀ s : State, s.memSize < 65536 → step s = .refused .memoryTooSmall) ∧
  (∀ s : State, 65536 ≤ s.memSize →
    (∀ op : Byte, unimplementedOpcode op = true → oosCostOf s.oosCost op ≠ 0) →
    step s = .refused .everyOpcodeCosted) ∧
  (∀ (s : State) (a : Nat) (v : Byte) (rest : List HostMove), s.admitted = true → s.host = .poke a v :: rest →
    s.memSize ≤ a → step s = .refused .pokeOutsideMemory)

/-- If MEM_SIZE is at least 65,536, some unimplemented opcode costs 0, and the next pending move, if any, is not a write
outside MEM_SIZE, then step answers a next state: nothing halts or stops the core. -/
def Obligations.AdmittedStepAlwaysGoesOn : Prop :=
  ∀ (s : State) (op : Byte), 65536 ≤ s.memSize → unimplementedOpcode op = true → oosCostOf s.oosCost op = 0 →
  s.nextAllowed = true → ∃ t : State, step s = .next t

/-- For every state and snapshot v: after Init, x[r] is v at the index of r (0x00 without a snapshot), F = 0x00, cycles
= 0, CT is the table of the forms' costs with the parameter OOS_COST; memory is untouched and no report is emitted.
That the caller's remaining moves and its driver's pc also stay is the model's reading, log 24, of fields that are
the model's own, log 9. -/
def Obligations.InitSetsTheWholeCore : Prop :=
  (∀ (s : State) (v : Vector Byte 7),
    (∀ r : Reg, (s.init (some v)).regs.read r = v[(r.index : Nat)]'(r.index.isLt)) ∧
    (∀ r : Reg, (s.init none).regs.read r = 0x00#8)) ∧
  (∀ (s : State) (v : Option (Vector Byte 7)), (s.init v).flags = 0x00#8 ∧ (s.init v).cycles = 0 ∧
    (∀ op : Byte, cycleTable (s.init v).oosCost op = cyclesOf s.oosCost (decodeByte op).form) ∧
    (s.init v).mem = s.mem ∧ (s.init v).reports = s.reports ∧ s.sameAround (s.init v))

/-- State.reset holds 0x00 in every register and in F, 0 cycles, cost 0 for every unimplemented opcode, MEM_SIZE =
65,536; no listed memory byte, no pending move, no report and pc 0 are the model's choices, logs 6, 9, 10 and 11. -/
def Obligations.ResetStateIsInitWithDefaults : Prop :=
  (∀ r : Reg, State.reset.regs.read r = 0x00#8) ∧ State.reset.flags = 0x00#8 ∧ State.reset.cycles = 0 ∧
  (∀ op : Byte, oosCostOf State.reset.oosCost op = 0) ∧ State.reset.memSize = 65536 ∧
  State.reset.mem = [] ∧ State.reset.host = [] ∧ State.reset.reports = [] ∧ State.reset.pc = 0x0000#16

/-- State.reset has an admitted configuration, a memory in canonical form inside MEM_SIZE, zero reserved flag bits and a
consistent flag byte. -/
def Obligations.ResetMeetsTheInvariants : Prop :=
  State.reset.Inv ∧ State.reset.flags &&& 0x54#8 = 0x00#8 ∧ flagsConsistent State.reset.flags

/-- For every state that meets the invariant, reachable or not, whatever the caller's move or the instruction: the next
state meets it too. -/
def Obligations.StepKeepsTheInvariant : Prop :=
  ∀ s t : State, s.Inv → step s = .next t → t.Inv

/-- For every state with bits 6, 4 and 2 of F zero, reachable or not: they are zero after any step. -/
def Obligations.StepKeepsReservedFlagBitsZero : Prop :=
  ∀ s t : State, s.flags &&& 0x54#8 = 0x00#8 → step s = .next t → t.flags &&& 0x54#8 = 0x00#8

/-- For every state whose F does not hold Z with S nor Z without P: the next state's F does not either, because Init
clears F and each ALU instruction takes the three flags from one result. -/
def Obligations.StepKeepsFlagsConsistent : Prop :=
  ∀ s t : State, flagsConsistent s.flags → step s = .next t → flagsConsistent t.flags

/-- For every step that answers a next state: if the oldest pending move is an Init, cycles become 0; if it is not
(another move, or none), cycles are at least what they were. The queue of moves is log 9. -/
def Obligations.CyclesNeverDecreaseButByInit : Prop :=
  ∀ s t : State, step s = .next t →
  (∀ (v : Option (Vector Byte 7)) (rest : List HostMove), s.host = .init v :: rest → t.cycles = 0) ∧
  ((∀ (v : Option (Vector Byte 7)) (rest : List HostMove), s.host ≠ .init v :: rest) → s.cycles ≤ t.cycles)

/-- In an admitted configuration with any list of Execute moves pending, running that many steps answers a next state,
with those moves taken and cycles increased by exactly the sum of CT over the opcodes. The queue of moves is log 9. -/
def Obligations.CyclesSumOverExecuteCalls : Prop :=
  ∀ (ops : List Byte) (rest : List HostMove) (s : State), s.admitted = true →
  s.host = ops.map HostMove.execute ++ rest →
  ∃ t : State, Host.Core.run Sys2Proof.core ops.length s = .next t ∧ t.host = rest ∧
    t.cycles = s.cycles + (ops.map (cycleTable s.oosCost)).sum

/-- In an admitted configuration with no move pending, if the byte at pc is MOV M,src and HL is pc + 1, the step
completes, and the next step executes the instruction that the stored x[src] decodes to, at pc + 2. -/
def Obligations.StoreIsSeenByTheNextFetch : Prop :=
  ∀ (src : Reg) (s : State), s.admitted = true → s.host = [] →
  decodeByte (s.mem.read s.pc.toNat) = Instr.ofForm (.movMR src) → s.hl = s.pc + 1#16 →
  ∃ t : State, step s = .next t ∧
    step t = exec (decodeByte (s.regs.read src)) { t with pc := s.pc + 2#16 }

/-- For every state: the value of the register operand r is x[r], for each of the seven registers, and the value of the
operand M is the byte memory holds at 256 times H plus L. The statements about ALU instructions say their results in
terms of this value. -/
def Obligations.OperandIsRegisterOrByteAtHL : Prop :=
  ∀ s : State, (∀ r : Reg, s.operand (.reg r) = s.regs.read r) ∧
  s.operand .mem = s.mem.read (256 * (s.regs.read .h).toNat + (s.regs.read .l).toNat)
end

