-- ==== Sys2Proof/Laws/Memory.lean ====
section
/-! SUPPORT. The laws of the byte store: a read after a write, and that every memory operation keeps the canonical form and
the store's size. The read laws hold for every list; the form is needed only to compare memories. -/

namespace Sys2Proof.Machine

theorem read_erase (m : Memory) (a b : Nat) :
    (Memory.erase m a).read b = if b = a then Memory.unlisted else m.read b := by
  induction m with
  | nil => simp [Memory.erase, Memory.read]
  | cons cell rest ih =>
    obtain ⟨k, w⟩ := cell
    by_cases hk : k = a
    · simp only [Memory.erase, List.filter_cons, hk, bne_self_eq_false, Bool.false_eq_true, if_false] at ih ⊢
      rw [ih]
      by_cases hb : b = a
      · simp [hb]
      · simp [hb, Memory.read, Ne.symm hb]
    · simp only [Memory.erase, List.filter_cons, bne_iff_ne, ne_eq, hk, not_false_eq_true, if_true, Memory.read] at ih ⊢
      rw [ih]
      by_cases hb : b = a
      · simp [hb, hk]
      · simp [hb]

theorem read_insert (m : Memory) (a b : Nat) (v : Byte) (h : ∀ cell ∈ m, cell.1 ≠ a) :
    (Memory.insert m a v).read b = if b = a then v else m.read b := by
  induction m with
  | nil => simp [Memory.insert, Memory.read, eq_comm]
  | cons cell rest ih =>
    obtain ⟨k, w⟩ := cell
    have hk : k ≠ a := h _ List.mem_cons_self
    have ih := ih fun c hc => h c (List.mem_cons_of_mem _ hc)
    by_cases hlt : a < k
    · simp [Memory.insert, hlt, Memory.read, eq_comm]
    · simp only [Memory.insert, hlt, if_false, Memory.read, ih]
      by_cases hb : b = a
      · simp [hb, hk]
      · simp [hb]

theorem ne_of_mem_erase (m : Memory) (a : Nat) : ∀ cell ∈ Memory.erase m a, cell.1 ≠ a := by
  intro cell hc
  simpa using (List.mem_filter.mp hc).2

/-- The law of the plain array (R48): a write is seen at its address and nowhere else. -/
theorem read_write (m : Memory) (a b : Nat) (v : Byte) :
    (Memory.write m a v).read b = if b = a then v else m.read b := by
  unfold Memory.write
  split
  · rename_i hv
    rw [read_erase, hv]
  · rw [read_insert _ _ _ _ (ne_of_mem_erase m a), read_erase]
    by_cases hb : b = a <;> simp [hb]

@[simp] theorem read_write_same (m : Memory) (a : Nat) (v : Byte) : (Memory.write m a v).read a = v := by
  simp [read_write]

theorem read_write_other (m : Memory) (a b : Nat) (v : Byte) (h : b ≠ a) :
    (Memory.write m a v).read b = m.read b := by
  simp [read_write, h]

theorem wf_cons (k : Nat) (v : Byte) (rest : Memory) :
    Memory.wf ((k, v) :: rest) = true ↔
      v ≠ Memory.unlisted ∧ (∀ cell ∈ rest, k < cell.1) ∧ Memory.wf rest = true := by
  simp [Memory.wf, and_assoc]

theorem erase_wf (m : Memory) (a : Nat) (h : Memory.wf m = true) : Memory.wf (Memory.erase m a) = true := by
  induction m with
  | nil => exact h
  | cons cell rest ih =>
    obtain ⟨k, w⟩ := cell
    obtain ⟨hv, hlt, hrest⟩ := (wf_cons k w rest).mp h
    by_cases hk : k = a
    · simpa [Memory.erase, hk] using ih hrest
    · have : Memory.erase ((k, w) :: rest) a = (k, w) :: Memory.erase rest a := by simp [Memory.erase, hk]
      rw [this]
      exact (wf_cons _ _ _).mpr ⟨hv, fun c hc => hlt c (List.mem_filter.mp hc).1, ih hrest⟩

theorem mem_insert (m : Memory) (a : Nat) (v : Byte) (cell : Host.Cell) (h : cell ∈ Memory.insert m a v) :
    cell = (a, v) ∨ cell ∈ m := by
  induction m with
  | nil => simpa [Memory.insert] using h
  | cons c rest ih =>
    obtain ⟨k, w⟩ := c
    by_cases hlt : a < k
    · simpa [Memory.insert, hlt] using h
    · simp only [Memory.insert, hlt, if_false, List.mem_cons] at h ⊢
      rcases h with h | h
      · exact .inr (.inl h)
      · exact (ih h).imp_right .inr

theorem insert_wf (m : Memory) (a : Nat) (v : Byte) (hv : v ≠ Memory.unlisted) (hne : ∀ cell ∈ m, cell.1 ≠ a)
    (h : Memory.wf m = true) : Memory.wf (Memory.insert m a v) = true := by
  induction m with
  | nil => simp [Memory.insert, Memory.wf, hv]
  | cons cell rest ih =>
    obtain ⟨k, w⟩ := cell
    obtain ⟨hw, hlt, hrest⟩ := (wf_cons k w rest).mp h
    have hk : k ≠ a := hne _ List.mem_cons_self
    by_cases hak : a < k
    · simp only [Memory.insert, hak, if_true]
      refine (wf_cons _ _ _).mpr ⟨hv, ?_, h⟩
      rintro c (_ | ⟨_, hc⟩)
      · exact hak
      · exact Nat.lt_trans hak (hlt c hc)
    · simp only [Memory.insert, hak, if_false]
      refine (wf_cons _ _ _).mpr ⟨hw, ?_, ih (fun c hc => hne c (List.mem_cons_of_mem _ hc)) hrest⟩
      intro c hc
      rcases mem_insert _ _ _ _ hc with rfl | hc
      · show k < a
        omega
      · exact hlt c hc

/-- A write keeps the canonical form. -/
theorem write_wf (m : Memory) (a : Nat) (v : Byte) (h : Memory.wf m = true) :
    Memory.wf (Memory.write m a v) = true := by
  unfold Memory.write
  split
  · exact erase_wf m a h
  · rename_i hv
    exact insert_wf _ a v hv (ne_of_mem_erase m a) (erase_wf m a h)

theorem within_iff (m : Memory) (size : Nat) : m.within size = true ↔ ∀ cell ∈ m, cell.1 < size := by
  simp [Memory.within]

/-- A write inside the store keeps every listed cell inside it. -/
theorem write_within (m : Memory) (a size : Nat) (v : Byte) (ha : a < size) (h : m.within size = true) :
    (Memory.write m a v).within size = true := by
  rw [within_iff] at h ⊢
  have herase : ∀ cell ∈ Memory.erase m a, cell.1 < size := fun c hc => h c (List.mem_filter.mp hc).1
  unfold Memory.write
  split
  · exact herase
  · intro c hc
    rcases mem_insert _ _ _ _ hc with rfl | hc
    · exact ha
    · exact herase c hc

end Sys2Proof.Machine
end

