-- ==== Sys2Proof/Laws/State.lean ====
section
/-! SUPPORT. What each update of the state does to each field, one lemma each, and the register file's laws. -/

namespace Sys2Proof.Machine

/-! `State.setReg` -/
@[simp] theorem setReg_regs (s : State) (r : Reg) (v : Byte) : (s.setReg r v).regs = s.regs.write r v := rfl
@[simp] theorem setReg_flags (s : State) (r : Reg) (v : Byte) : (s.setReg r v).flags = s.flags := rfl
@[simp] theorem setReg_cycles (s : State) (r : Reg) (v : Byte) : (s.setReg r v).cycles = s.cycles := rfl
@[simp] theorem setReg_oosCost (s : State) (r : Reg) (v : Byte) : (s.setReg r v).oosCost = s.oosCost := rfl
@[simp] theorem setReg_memSize (s : State) (r : Reg) (v : Byte) : (s.setReg r v).memSize = s.memSize := rfl
@[simp] theorem setReg_mem (s : State) (r : Reg) (v : Byte) : (s.setReg r v).mem = s.mem := rfl
@[simp] theorem setReg_reports (s : State) (r : Reg) (v : Byte) : (s.setReg r v).reports = s.reports := rfl
@[simp] theorem setReg_host (s : State) (r : Reg) (v : Byte) : (s.setReg r v).host = s.host := rfl
@[simp] theorem setReg_pc (s : State) (r : Reg) (v : Byte) : (s.setReg r v).pc = s.pc := rfl

/-! `State.setFlags` -/
@[simp] theorem setFlags_regs (s : State) (v : Byte) : (s.setFlags v).regs = s.regs := rfl
@[simp] theorem setFlags_flags (s : State) (v : Byte) : (s.setFlags v).flags = v := rfl
@[simp] theorem setFlags_cycles (s : State) (v : Byte) : (s.setFlags v).cycles = s.cycles := rfl
@[simp] theorem setFlags_oosCost (s : State) (v : Byte) : (s.setFlags v).oosCost = s.oosCost := rfl
@[simp] theorem setFlags_memSize (s : State) (v : Byte) : (s.setFlags v).memSize = s.memSize := rfl
@[simp] theorem setFlags_mem (s : State) (v : Byte) : (s.setFlags v).mem = s.mem := rfl
@[simp] theorem setFlags_reports (s : State) (v : Byte) : (s.setFlags v).reports = s.reports := rfl
@[simp] theorem setFlags_host (s : State) (v : Byte) : (s.setFlags v).host = s.host := rfl
@[simp] theorem setFlags_pc (s : State) (v : Byte) : (s.setFlags v).pc = s.pc := rfl

/-! `State.storeByte` -/
@[simp] theorem storeByte_regs (s : State) (a : Addr) (v : Byte) : (s.storeByte a v).regs = s.regs := rfl
@[simp] theorem storeByte_flags (s : State) (a : Addr) (v : Byte) : (s.storeByte a v).flags = s.flags := rfl
@[simp] theorem storeByte_cycles (s : State) (a : Addr) (v : Byte) : (s.storeByte a v).cycles = s.cycles := rfl
@[simp] theorem storeByte_oosCost (s : State) (a : Addr) (v : Byte) : (s.storeByte a v).oosCost = s.oosCost := rfl
@[simp] theorem storeByte_memSize (s : State) (a : Addr) (v : Byte) : (s.storeByte a v).memSize = s.memSize := rfl
@[simp] theorem storeByte_mem (s : State) (a : Addr) (v : Byte) : (s.storeByte a v).mem = s.mem.write a.toNat v := rfl
@[simp] theorem storeByte_reports (s : State) (a : Addr) (v : Byte) : (s.storeByte a v).reports = s.reports := rfl
@[simp] theorem storeByte_host (s : State) (a : Addr) (v : Byte) : (s.storeByte a v).host = s.host := rfl
@[simp] theorem storeByte_pc (s : State) (a : Addr) (v : Byte) : (s.storeByte a v).pc = s.pc := rfl

/-! `State.addCycles` -/
@[simp] theorem addCycles_regs (s : State) (n : Nat) : (s.addCycles n).regs = s.regs := rfl
@[simp] theorem addCycles_flags (s : State) (n : Nat) : (s.addCycles n).flags = s.flags := rfl
@[simp] theorem addCycles_cycles (s : State) (n : Nat) : (s.addCycles n).cycles = s.cycles + n := rfl
@[simp] theorem addCycles_oosCost (s : State) (n : Nat) : (s.addCycles n).oosCost = s.oosCost := rfl
@[simp] theorem addCycles_memSize (s : State) (n : Nat) : (s.addCycles n).memSize = s.memSize := rfl
@[simp] theorem addCycles_mem (s : State) (n : Nat) : (s.addCycles n).mem = s.mem := rfl
@[simp] theorem addCycles_reports (s : State) (n : Nat) : (s.addCycles n).reports = s.reports := rfl
@[simp] theorem addCycles_host (s : State) (n : Nat) : (s.addCycles n).host = s.host := rfl
@[simp] theorem addCycles_pc (s : State) (n : Nat) : (s.addCycles n).pc = s.pc := rfl

/-! `State.charge` -/
@[simp] theorem charge_regs (s : State) (f : Form) : (s.charge f).regs = s.regs := rfl
@[simp] theorem charge_flags (s : State) (f : Form) : (s.charge f).flags = s.flags := rfl
@[simp] theorem charge_cycles (s : State) (f : Form) : (s.charge f).cycles = s.cycles + cyclesOf s.oosCost f := rfl
@[simp] theorem charge_oosCost (s : State) (f : Form) : (s.charge f).oosCost = s.oosCost := rfl
@[simp] theorem charge_memSize (s : State) (f : Form) : (s.charge f).memSize = s.memSize := rfl
@[simp] theorem charge_mem (s : State) (f : Form) : (s.charge f).mem = s.mem := rfl
@[simp] theorem charge_reports (s : State) (f : Form) : (s.charge f).reports = s.reports := rfl
@[simp] theorem charge_host (s : State) (f : Form) : (s.charge f).host = s.host := rfl
@[simp] theorem charge_pc (s : State) (f : Form) : (s.charge f).pc = s.pc := rfl

/-! `State.report` -/
@[simp] theorem report_regs (s : State) (op : Byte) : (s.report op).regs = s.regs := rfl
@[simp] theorem report_flags (s : State) (op : Byte) : (s.report op).flags = s.flags := rfl
@[simp] theorem report_cycles (s : State) (op : Byte) : (s.report op).cycles = s.cycles := rfl
@[simp] theorem report_oosCost (s : State) (op : Byte) : (s.report op).oosCost = s.oosCost := rfl
@[simp] theorem report_memSize (s : State) (op : Byte) : (s.report op).memSize = s.memSize := rfl
@[simp] theorem report_mem (s : State) (op : Byte) : (s.report op).mem = s.mem := rfl
@[simp] theorem report_reports (s : State) (op : Byte) : (s.report op).reports = s.reports ++ [op] := rfl
@[simp] theorem report_host (s : State) (op : Byte) : (s.report op).host = s.host := rfl
@[simp] theorem report_pc (s : State) (op : Byte) : (s.report op).pc = s.pc := rfl

/-! `State.init` -/
@[simp] theorem init_regs (s : State) (v : Option (Vector Byte 7)) : (s.init v).regs = RegFile.ofSnapshot (v.getD zeroSnapshot) := rfl
@[simp] theorem init_flags (s : State) (v : Option (Vector Byte 7)) : (s.init v).flags = 0x00 := rfl
@[simp] theorem init_cycles (s : State) (v : Option (Vector Byte 7)) : (s.init v).cycles = 0 := rfl
@[simp] theorem init_oosCost (s : State) (v : Option (Vector Byte 7)) : (s.init v).oosCost = s.oosCost := rfl
@[simp] theorem init_memSize (s : State) (v : Option (Vector Byte 7)) : (s.init v).memSize = s.memSize := rfl
@[simp] theorem init_mem (s : State) (v : Option (Vector Byte 7)) : (s.init v).mem = s.mem := rfl
@[simp] theorem init_reports (s : State) (v : Option (Vector Byte 7)) : (s.init v).reports = s.reports := rfl
@[simp] theorem init_host (s : State) (v : Option (Vector Byte 7)) : (s.init v).host = s.host := rfl
@[simp] theorem init_pc (s : State) (v : Option (Vector Byte 7)) : (s.init v).pc = s.pc := rfl

/-! `State.setHost` -/
@[simp] theorem setHost_regs (s : State) (m : List HostMove) : (s.setHost m).regs = s.regs := rfl
@[simp] theorem setHost_flags (s : State) (m : List HostMove) : (s.setHost m).flags = s.flags := rfl
@[simp] theorem setHost_cycles (s : State) (m : List HostMove) : (s.setHost m).cycles = s.cycles := rfl
@[simp] theorem setHost_oosCost (s : State) (m : List HostMove) : (s.setHost m).oosCost = s.oosCost := rfl
@[simp] theorem setHost_memSize (s : State) (m : List HostMove) : (s.setHost m).memSize = s.memSize := rfl
@[simp] theorem setHost_mem (s : State) (m : List HostMove) : (s.setHost m).mem = s.mem := rfl
@[simp] theorem setHost_reports (s : State) (m : List HostMove) : (s.setHost m).reports = s.reports := rfl
@[simp] theorem setHost_host (s : State) (m : List HostMove) : (s.setHost m).host = m := rfl
@[simp] theorem setHost_pc (s : State) (m : List HostMove) : (s.setHost m).pc = s.pc := rfl

/-! `State.advancePc` -/
@[simp] theorem advancePc_regs (s : State) : (s.advancePc).regs = s.regs := rfl
@[simp] theorem advancePc_flags (s : State) : (s.advancePc).flags = s.flags := rfl
@[simp] theorem advancePc_cycles (s : State) : (s.advancePc).cycles = s.cycles := rfl
@[simp] theorem advancePc_oosCost (s : State) : (s.advancePc).oosCost = s.oosCost := rfl
@[simp] theorem advancePc_memSize (s : State) : (s.advancePc).memSize = s.memSize := rfl
@[simp] theorem advancePc_mem (s : State) : (s.advancePc).mem = s.mem := rfl
@[simp] theorem advancePc_reports (s : State) : (s.advancePc).reports = s.reports := rfl
@[simp] theorem advancePc_host (s : State) : (s.advancePc).host = s.host := rfl
@[simp] theorem advancePc_pc (s : State) : (s.advancePc).pc = s.pc + 1#16 := rfl

/-! `State.setAcc`: only the registers, and those only when the operation writes A. -/
@[simp] theorem setAcc_regs (s : State) (o : AluOp) (v : Byte) :
    (s.setAcc o v).regs = if aluWritesA o then s.regs.write .a v else s.regs := by
  unfold State.setAcc; split <;> rfl
@[simp] theorem setAcc_flags (s : State) (o : AluOp) (v : Byte) : (s.setAcc o v).flags = s.flags := by
  unfold State.setAcc; split <;> rfl
@[simp] theorem setAcc_cycles (s : State) (o : AluOp) (v : Byte) : (s.setAcc o v).cycles = s.cycles := by
  unfold State.setAcc; split <;> rfl
@[simp] theorem setAcc_oosCost (s : State) (o : AluOp) (v : Byte) : (s.setAcc o v).oosCost = s.oosCost := by
  unfold State.setAcc; split <;> rfl
@[simp] theorem setAcc_memSize (s : State) (o : AluOp) (v : Byte) : (s.setAcc o v).memSize = s.memSize := by
  unfold State.setAcc; split <;> rfl
@[simp] theorem setAcc_mem (s : State) (o : AluOp) (v : Byte) : (s.setAcc o v).mem = s.mem := by
  unfold State.setAcc; split <;> rfl
@[simp] theorem setAcc_reports (s : State) (o : AluOp) (v : Byte) : (s.setAcc o v).reports = s.reports := by
  unfold State.setAcc; split <;> rfl
@[simp] theorem setAcc_host (s : State) (o : AluOp) (v : Byte) : (s.setAcc o v).host = s.host := by
  unfold State.setAcc; split <;> rfl
@[simp] theorem setAcc_pc (s : State) (o : AluOp) (v : Byte) : (s.setAcc o v).pc = s.pc := by
  unfold State.setAcc; split <;> rfl

/-! The register file: a write is seen at its register and nowhere else. -/

theorem RegFile.read_write (x : RegFile) (r q : Reg) (v : Byte) :
    (x.write r v).read q = if q = r then v else x.read q := by
  cases r <;> cases q <;> rfl

@[simp] theorem RegFile.read_write_same (x : RegFile) (r : Reg) (v : Byte) : (x.write r v).read r = v := by
  simp [RegFile.read_write]

theorem RegFile.read_write_other (x : RegFile) (r q : Reg) (v : Byte) (h : q ≠ r) :
    (x.write r v).read q = x.read q := by
  simp [RegFile.read_write, h]

/-! What reads see after an update of another part of the state. -/

theorem getReg_of_regs (s t : State) (h : t.regs = s.regs) (r : Reg) : t.getReg r = s.getReg r := by
  simp only [State.getReg, h]

theorem hl_of_regs (s t : State) (h : t.regs = s.regs) : t.hl = s.hl := by
  simp only [State.hl, State.getReg, h]

theorem operand_of_regs_mem (s t : State) (hr : t.regs = s.regs) (hm : t.mem = s.mem) (src : Operand) :
    t.operand src = s.operand src := by
  cases src <;> simp only [State.operand, State.loadByte, hl_of_regs s t hr, getReg_of_regs s t hr, hm]

end Sys2Proof.Machine
end

