-- ==== Sys2Proof/Laws/Exec.lean ====
section
/-! SUPPORT. What exec and step can do, said once: exec is the effect of the instruction's form, and a step that answers a
next state made one of the caller's moves or one step of its driver. -/

namespace Sys2Proof.Machine

/-- The effect of a form, over the families' shared operations. -/
def effect : Form → State → State
  | .movRR dst src, s => movRR dst src s
  | .movRM dst, s => movRM dst s
  | .movMR src, s => movMR src s
  | .alu o src, s => alu o src s
  | .unimplemented op, s => (s.charge (.unimplemented op)).report op

/-- Every instruction answers the effect of its form. -/
theorem exec_eq_effect (i : Instr) (s : State) : exec i s = .next (effect i.form s) := by
  cases i <;> rfl

/-- The form of the constructor that stands for a form. -/
@[simp] theorem form_ofForm (f : Form) : (Instr.ofForm f).form = f := by
  rcases f with ⟨dst, r⟩ | ⟨dst⟩ | ⟨r⟩ | ⟨o, r | _⟩ | op
  · cases dst <;> cases r <;> rfl
  · cases dst <;> rfl
  · cases r <;> rfl
  · cases o <;> cases r <;> rfl
  · cases o <;> rfl
  · rfl

theorem exec_ofForm (f : Form) (s : State) : exec (Instr.ofForm f) s = .next (effect f s) := by
  rw [exec_eq_effect, form_ofForm]

/-! What each form does to each field. -/

theorem effect_cycles (f : Form) (s : State) : (effect f s).cycles = s.cycles + cyclesOf s.oosCost f := by
  cases f <;> simp [effect, movRR, movRM, movMR, alu]

@[simp] theorem effect_oosCost (f : Form) (s : State) : (effect f s).oosCost = s.oosCost := by
  cases f <;> simp [effect, movRR, movRM, movMR, alu]

@[simp] theorem effect_memSize (f : Form) (s : State) : (effect f s).memSize = s.memSize := by
  cases f <;> simp [effect, movRR, movRM, movMR, alu]

@[simp] theorem effect_host (f : Form) (s : State) : (effect f s).host = s.host := by
  cases f <;> simp [effect, movRR, movRM, movMR, alu]

@[simp] theorem effect_pc (f : Form) (s : State) : (effect f s).pc = s.pc := by
  cases f <;> simp [effect, movRR, movRM, movMR, alu]

theorem effect_mem (f : Form) (s : State) :
    (effect f s).mem = match f with
      | .movMR src => s.mem.write s.hl.toNat (s.getReg src)
      | _ => s.mem := by
  cases f <;> simp [effect, movRR, movRM, movMR, alu]

theorem effect_reports (f : Form) (s : State) :
    (effect f s).reports = match f with
      | .unimplemented op => s.reports ++ [op]
      | _ => s.reports := by
  cases f <;> simp [effect, movRR, movRM, movMR, alu]

theorem effect_flags (f : Form) (s : State) :
    (effect f s).flags = match f with
      | .alu o src => flagReplace s.flags (aluFlags o (s.getReg .a) (s.operand src) s.carryIn)
      | _ => s.flags := by
  cases f <;> simp [effect, movRR, movRM, movMR, alu]

theorem effect_regs (f : Form) (s : State) :
    (effect f s).regs = match f with
      | .movRR dst src => s.regs.write dst (s.getReg src)
      | .movRM dst => s.regs.write dst (s.loadByte s.hl)
      | .movMR _ => s.regs
      | .alu o src =>
        if aluWritesA o then s.regs.write .a (aluResult o (s.getReg .a) (s.operand src) s.carryIn) else s.regs
      | .unimplemented _ => s.regs := by
  cases f <;> simp [effect, movRR, movRM, movMR, alu]

/-! The caller. -/

theorem admitted_iff (s : State) :
    s.admitted = true ↔ Config.minMemSize ≤ s.memSize ∧ someUncosted s.oosCost = true := by
  simp [State.admitted]

/-- A zero entry in OOS_COST is an unimplemented opcode that costs 0. -/
theorem someUncosted_iff (costs : OosCost) :
    someUncosted costs = true ↔ ∃ op : Byte, unimplementedOpcode op = true ∧ oosCostOf costs op = 0 := by
  simp only [someUncosted, List.any_eq_true, List.mem_range, Bool.and_eq_true, beq_iff_eq]
  constructor
  · rintro ⟨n, _, h⟩
    exact ⟨_, h⟩
  · rintro ⟨op, h⟩
    exact ⟨op.toNat, op.isLt, by simpa using h⟩

/-- In an admitted configuration the next call is the caller's choice. -/
theorem nextCall_admitted (s : State) (h : s.admitted = true) : nextCall s = callerChoice s := by
  obtain ⟨hm, hc⟩ := (admitted_iff s).mp h
  simp [nextCall, Nat.not_lt.mpr hm, hc]

/-- A step that answers a next state ran in an admitted configuration. -/
theorem admitted_of_step (s t : State) (h : step s = .next t) : s.admitted = true := by
  rw [admitted_iff]
  by_cases hm : s.memSize < Config.minMemSize
  · simp [step, nextCall, hm] at h
  · by_cases hc : someUncosted s.oosCost = false
    · simp [step, nextCall, hm, hc] at h
    · exact ⟨Nat.not_lt.mp hm, by simpa using hc⟩

/-- Everything a step that answers a next state can have done. -/
theorem step_cases (s t : State) (h : step s = .next t) :
    (s.host = [] ∧ t = effect (decodeByte s.fetch).form s.advancePc) ∨
    (∃ v rest, s.host = .init v :: rest ∧ t = (s.setHost rest).init v) ∨
    (∃ op rest, s.host = .execute op :: rest ∧ t = effect (decodeByte op).form (s.setHost rest)) ∨
    (∃ rest, s.host = .inspect :: rest ∧ t = s.setHost rest) ∨
    (∃ a v rest, s.host = .poke a v :: rest ∧ a < s.memSize ∧
      t = { s.setHost rest with mem := s.mem.write a v }) := by
  have hadm := admitted_of_step s t h
  rw [step, nextCall_admitted s hadm] at h
  cases hh : s.host with
  | nil =>
    simp only [callerChoice, hh, driverCall, exec_eq_effect, Host.Outcome.next.injEq] at h
    exact .inl ⟨rfl, h.symm⟩
  | cons m rest =>
    cases m with
    | init v =>
      simp only [callerChoice, hh, moveCall, Host.Outcome.next.injEq] at h
      exact .inr (.inl ⟨v, rest, rfl, h.symm⟩)
    | execute op =>
      simp only [callerChoice, hh, moveCall, exec_eq_effect, Host.Outcome.next.injEq] at h
      exact .inr (.inr (.inl ⟨op, rest, rfl, h.symm⟩))
    | inspect =>
      simp only [callerChoice, hh, moveCall, Host.Outcome.next.injEq] at h
      exact .inr (.inr (.inr (.inl ⟨rest, rfl, h.symm⟩)))
    | poke a v =>
      simp only [callerChoice, hh, moveCall, pokeCall] at h
      by_cases ha : a < s.memSize
      · simp only [setHost_memSize, ha, if_true, setHost_mem, Host.Outcome.next.injEq] at h
        exact .inr (.inr (.inr (.inr ⟨a, v, rest, rfl, ha, h.symm⟩)))
      · simp [ha] at h

end Sys2Proof.Machine
end

