-- ==== Sys2Proof/Laws/PerInstr.lean ====
section
/-! SUPPORT. One lemma for each instruction as syntax: the form says all of it (the constructor comes back from the form),
and its opcode byte's form is that form. -/

namespace Sys2Proof.Laws.FormView

/-- The form determines the instruction, and a well-formed instruction's opcode decodes to its form. -/
def Statement (i : Instr) : Prop :=
  Instr.ofForm i.form = i ∧ (i.wellFormed = true → decodeForm (encodeByte i) = i.form)

theorem movBB : Statement .movBB := ⟨rfl, by decide⟩
theorem movBC : Statement .movBC := ⟨rfl, by decide⟩
theorem movBD : Statement .movBD := ⟨rfl, by decide⟩
theorem movBE : Statement .movBE := ⟨rfl, by decide⟩
theorem movBH : Statement .movBH := ⟨rfl, by decide⟩
theorem movBL : Statement .movBL := ⟨rfl, by decide⟩
theorem movBM : Statement .movBM := ⟨rfl, by decide⟩
theorem movBA : Statement .movBA := ⟨rfl, by decide⟩
theorem movCB : Statement .movCB := ⟨rfl, by decide⟩
theorem movCC : Statement .movCC := ⟨rfl, by decide⟩
theorem movCD : Statement .movCD := ⟨rfl, by decide⟩
theorem movCE : Statement .movCE := ⟨rfl, by decide⟩
theorem movCH : Statement .movCH := ⟨rfl, by decide⟩
theorem movCL : Statement .movCL := ⟨rfl, by decide⟩
theorem movCM : Statement .movCM := ⟨rfl, by decide⟩
theorem movCA : Statement .movCA := ⟨rfl, by decide⟩
theorem movDB : Statement .movDB := ⟨rfl, by decide⟩
theorem movDC : Statement .movDC := ⟨rfl, by decide⟩
theorem movDD : Statement .movDD := ⟨rfl, by decide⟩
theorem movDE : Statement .movDE := ⟨rfl, by decide⟩
theorem movDH : Statement .movDH := ⟨rfl, by decide⟩
theorem movDL : Statement .movDL := ⟨rfl, by decide⟩
theorem movDM : Statement .movDM := ⟨rfl, by decide⟩
theorem movDA : Statement .movDA := ⟨rfl, by decide⟩
theorem movEB : Statement .movEB := ⟨rfl, by decide⟩
theorem movEC : Statement .movEC := ⟨rfl, by decide⟩
theorem movED : Statement .movED := ⟨rfl, by decide⟩
theorem movEE : Statement .movEE := ⟨rfl, by decide⟩
theorem movEH : Statement .movEH := ⟨rfl, by decide⟩
theorem movEL : Statement .movEL := ⟨rfl, by decide⟩
theorem movEM : Statement .movEM := ⟨rfl, by decide⟩
theorem movEA : Statement .movEA := ⟨rfl, by decide⟩
theorem movHB : Statement .movHB := ⟨rfl, by decide⟩
theorem movHC : Statement .movHC := ⟨rfl, by decide⟩
theorem movHD : Statement .movHD := ⟨rfl, by decide⟩
theorem movHE : Statement .movHE := ⟨rfl, by decide⟩
theorem movHH : Statement .movHH := ⟨rfl, by decide⟩
theorem movHL : Statement .movHL := ⟨rfl, by decide⟩
theorem movHM : Statement .movHM := ⟨rfl, by decide⟩
theorem movHA : Statement .movHA := ⟨rfl, by decide⟩
theorem movLB : Statement .movLB := ⟨rfl, by decide⟩
theorem movLC : Statement .movLC := ⟨rfl, by decide⟩
theorem movLD : Statement .movLD := ⟨rfl, by decide⟩
theorem movLE : Statement .movLE := ⟨rfl, by decide⟩
theorem movLH : Statement .movLH := ⟨rfl, by decide⟩
theorem movLL : Statement .movLL := ⟨rfl, by decide⟩
theorem movLM : Statement .movLM := ⟨rfl, by decide⟩
theorem movLA : Statement .movLA := ⟨rfl, by decide⟩
theorem movMB : Statement .movMB := ⟨rfl, by decide⟩
theorem movMC : Statement .movMC := ⟨rfl, by decide⟩
theorem movMD : Statement .movMD := ⟨rfl, by decide⟩
theorem movME : Statement .movME := ⟨rfl, by decide⟩
theorem movMH : Statement .movMH := ⟨rfl, by decide⟩
theorem movML : Statement .movML := ⟨rfl, by decide⟩
theorem movMA : Statement .movMA := ⟨rfl, by decide⟩
theorem movAB : Statement .movAB := ⟨rfl, by decide⟩
theorem movAC : Statement .movAC := ⟨rfl, by decide⟩
theorem movAD : Statement .movAD := ⟨rfl, by decide⟩
theorem movAE : Statement .movAE := ⟨rfl, by decide⟩
theorem movAH : Statement .movAH := ⟨rfl, by decide⟩
theorem movAL : Statement .movAL := ⟨rfl, by decide⟩
theorem movAM : Statement .movAM := ⟨rfl, by decide⟩
theorem movAA : Statement .movAA := ⟨rfl, by decide⟩
theorem addB : Statement .addB := ⟨rfl, by decide⟩
theorem addC : Statement .addC := ⟨rfl, by decide⟩
theorem addD : Statement .addD := ⟨rfl, by decide⟩
theorem addE : Statement .addE := ⟨rfl, by decide⟩
theorem addH : Statement .addH := ⟨rfl, by decide⟩
theorem addL : Statement .addL := ⟨rfl, by decide⟩
theorem addM : Statement .addM := ⟨rfl, by decide⟩
theorem addA : Statement .addA := ⟨rfl, by decide⟩
theorem adcB : Statement .adcB := ⟨rfl, by decide⟩
theorem adcC : Statement .adcC := ⟨rfl, by decide⟩
theorem adcD : Statement .adcD := ⟨rfl, by decide⟩
theorem adcE : Statement .adcE := ⟨rfl, by decide⟩
theorem adcH : Statement .adcH := ⟨rfl, by decide⟩
theorem adcL : Statement .adcL := ⟨rfl, by decide⟩
theorem adcM : Statement .adcM := ⟨rfl, by decide⟩
theorem adcA : Statement .adcA := ⟨rfl, by decide⟩
theorem subB : Statement .subB := ⟨rfl, by decide⟩
theorem subC : Statement .subC := ⟨rfl, by decide⟩
theorem subD : Statement .subD := ⟨rfl, by decide⟩
theorem subE : Statement .subE := ⟨rfl, by decide⟩
theorem subH : Statement .subH := ⟨rfl, by decide⟩
theorem subL : Statement .subL := ⟨rfl, by decide⟩
theorem subM : Statement .subM := ⟨rfl, by decide⟩
theorem subA : Statement .subA := ⟨rfl, by decide⟩
theorem sbbB : Statement .sbbB := ⟨rfl, by decide⟩
theorem sbbC : Statement .sbbC := ⟨rfl, by decide⟩
theorem sbbD : Statement .sbbD := ⟨rfl, by decide⟩
theorem sbbE : Statement .sbbE := ⟨rfl, by decide⟩
theorem sbbH : Statement .sbbH := ⟨rfl, by decide⟩
theorem sbbL : Statement .sbbL := ⟨rfl, by decide⟩
theorem sbbM : Statement .sbbM := ⟨rfl, by decide⟩
theorem sbbA : Statement .sbbA := ⟨rfl, by decide⟩
theorem anaB : Statement .anaB := ⟨rfl, by decide⟩
theorem anaC : Statement .anaC := ⟨rfl, by decide⟩
theorem anaD : Statement .anaD := ⟨rfl, by decide⟩
theorem anaE : Statement .anaE := ⟨rfl, by decide⟩
theorem anaH : Statement .anaH := ⟨rfl, by decide⟩
theorem anaL : Statement .anaL := ⟨rfl, by decide⟩
theorem anaM : Statement .anaM := ⟨rfl, by decide⟩
theorem anaA : Statement .anaA := ⟨rfl, by decide⟩
theorem xraB : Statement .xraB := ⟨rfl, by decide⟩
theorem xraC : Statement .xraC := ⟨rfl, by decide⟩
theorem xraD : Statement .xraD := ⟨rfl, by decide⟩
theorem xraE : Statement .xraE := ⟨rfl, by decide⟩
theorem xraH : Statement .xraH := ⟨rfl, by decide⟩
theorem xraL : Statement .xraL := ⟨rfl, by decide⟩
theorem xraM : Statement .xraM := ⟨rfl, by decide⟩
theorem xraA : Statement .xraA := ⟨rfl, by decide⟩
theorem oraB : Statement .oraB := ⟨rfl, by decide⟩
theorem oraC : Statement .oraC := ⟨rfl, by decide⟩
theorem oraD : Statement .oraD := ⟨rfl, by decide⟩
theorem oraE : Statement .oraE := ⟨rfl, by decide⟩
theorem oraH : Statement .oraH := ⟨rfl, by decide⟩
theorem oraL : Statement .oraL := ⟨rfl, by decide⟩
theorem oraM : Statement .oraM := ⟨rfl, by decide⟩
theorem oraA : Statement .oraA := ⟨rfl, by decide⟩
theorem cmpB : Statement .cmpB := ⟨rfl, by decide⟩
theorem cmpC : Statement .cmpC := ⟨rfl, by decide⟩
theorem cmpD : Statement .cmpD := ⟨rfl, by decide⟩
theorem cmpE : Statement .cmpE := ⟨rfl, by decide⟩
theorem cmpH : Statement .cmpH := ⟨rfl, by decide⟩
theorem cmpL : Statement .cmpL := ⟨rfl, by decide⟩
theorem cmpM : Statement .cmpM := ⟨rfl, by decide⟩
theorem cmpA : Statement .cmpA := ⟨rfl, by decide⟩

/-- An opcode outside the 127 in-scope ones has the unimplemented form (R68). -/
theorem decodeForm_unimplemented (op : Byte) (h : unimplementedOpcode op = true) :
    decodeForm op = .unimplemented op := by
  revert op
  decide

theorem unimplemented (op : Byte) : Statement (.unimplemented op) :=
  ⟨rfl, decodeForm_unimplemented op⟩

end Sys2Proof.Laws.FormView
end

