-- ==== Sys2Proof/Machine/Assembly.lean ====
section
/-! DEFINITION. The assembler syntax of R71 and R72, with the scope note's names as aliases (R12, C4). It has no effect on
what an instruction does. Destination first is the Intel order [PRESUMED, log 2]. -/

namespace Sys2Proof.Machine

/-- The assembler's name of an operand (R71): M is the memory byte at HL. -/
def operandName : Operand → String
  | .reg .b => "B"
  | .reg .c => "C"
  | .reg .d => "D"
  | .reg .e => "E"
  | .reg .h => "H"
  | .reg .l => "L"
  | .reg .a => "A"
  | .mem => "M"

/-- The names of an operation: the document's, then the scope note's where it differs (R12). -/
def aluNames : AluOp → List String
  | .add => ["ADD"]
  | .adc => ["ADC"]
  | .sub => ["SUB"]
  | .sbb => ["SBB", "SBC"]
  | .ana => ["ANA", "AND"]
  | .xra => ["XRA", "XOR"]
  | .ora => ["ORA", "OR"]
  | .cmp => ["CMP"]

/-- The lines that name a form, the document's spelling first. An unimplemented opcode has no line (R72). -/
def assemblyLines : Form → List String
  | .movRR dst src => ["MOV " ++ operandName (.reg dst) ++ "," ++ operandName (.reg src)]
  | .movRM dst => ["MOV " ++ operandName (.reg dst) ++ "," ++ operandName .mem]
  | .movMR src => ["MOV " ++ operandName .mem ++ "," ++ operandName (.reg src)]
  | .alu o src => (aluNames o).map fun name => name ++ " " ++ operandName src
  | .unimplemented _ => []

/-- The instruction an assembler line names, if any: each line names exactly one opcode (R72). -/
def assemble (line : String) : Option Instr :=
  ((List.range 256).map fun n => decodeByte (BitVec.ofNat 8 n)).find? fun i => (assemblyLines i.form).contains line

end Sys2Proof.Machine
end

