-- ==== Sys2Proof/Tests/Slice0.lean ====
section
/-! SUPPORT. Small tests whose expected results come from spec/, and for every obligation with hypotheses a state and
operands that meet them. -/

namespace Sys2Proof.Tests

open Sys2Proof Sys2Proof.Machine

/-! Well-formedness: what is refused, and the edges of what is accepted (R68). -/

theorem test_wf_refuses_inscope_opcode : (Instr.unimplemented 0x40#8).wellFormed = false := by decide
theorem test_wf_refuses_edges : (Instr.unimplemented 0x75#8).wellFormed = false ∧
    (Instr.unimplemented 0x77#8).wellFormed = false ∧ (Instr.unimplemented 0xBF#8).wellFormed = false := by decide
theorem test_wf_accepts_edges : (Instr.unimplemented 0x00#8).wellFormed = true ∧
    (Instr.unimplemented 0x3F#8).wellFormed = true ∧ (Instr.unimplemented 0x76#8).wellFormed = true ∧
    (Instr.unimplemented 0xC0#8).wellFormed = true ∧ (Instr.unimplemented 0xFF#8).wellFormed = true := by decide
theorem test_wf_accepts_inscope : Instr.movBB.wellFormed = true ∧ Instr.cmpM.wellFormed = true := by decide

/-! Decoding: the opcode map of R69, row by row, and words written out bit by bit. -/

theorem test_decode_row_4x : (List.range 16).map (fun n => decodeByte (BitVec.ofNat 8 (0x40 + n))) =
    [.movBB, .movBC, .movBD, .movBE, .movBH, .movBL, .movBM, .movBA,
     .movCB, .movCC, .movCD, .movCE, .movCH, .movCL, .movCM, .movCA] := by decide

theorem test_decode_row_5x : (List.range 16).map (fun n => decodeByte (BitVec.ofNat 8 (0x50 + n))) =
    [.movDB, .movDC, .movDD, .movDE, .movDH, .movDL, .movDM, .movDA,
     .movEB, .movEC, .movED, .movEE, .movEH, .movEL, .movEM, .movEA] := by decide

theorem test_decode_row_6x : (List.range 16).map (fun n => decodeByte (BitVec.ofNat 8 (0x60 + n))) =
    [.movHB, .movHC, .movHD, .movHE, .movHH, .movHL, .movHM, .movHA,
     .movLB, .movLC, .movLD, .movLE, .movLH, .movLL, .movLM, .movLA] := by decide

theorem test_decode_row_7x : (List.range 16).map (fun n => decodeByte (BitVec.ofNat 8 (0x70 + n))) =
    [.movMB, .movMC, .movMD, .movME, .movMH, .movML, .unimplemented 0x76#8, .movMA,
     .movAB, .movAC, .movAD, .movAE, .movAH, .movAL, .movAM, .movAA] := by decide

theorem test_decode_row_8x : (List.range 16).map (fun n => decodeByte (BitVec.ofNat 8 (0x80 + n))) =
    [.addB, .addC, .addD, .addE, .addH, .addL, .addM, .addA,
     .adcB, .adcC, .adcD, .adcE, .adcH, .adcL, .adcM, .adcA] := by decide

theorem test_decode_row_9x : (List.range 16).map (fun n => decodeByte (BitVec.ofNat 8 (0x90 + n))) =
    [.subB, .subC, .subD, .subE, .subH, .subL, .subM, .subA,
     .sbbB, .sbbC, .sbbD, .sbbE, .sbbH, .sbbL, .sbbM, .sbbA] := by decide

theorem test_decode_row_Ax : (List.range 16).map (fun n => decodeByte (BitVec.ofNat 8 (0xA0 + n))) =
    [.anaB, .anaC, .anaD, .anaE, .anaH, .anaL, .anaM, .anaA,
     .xraB, .xraC, .xraD, .xraE, .xraH, .xraL, .xraM, .xraA] := by decide

theorem test_decode_row_Bx : (List.range 16).map (fun n => decodeByte (BitVec.ofNat 8 (0xB0 + n))) =
    [.oraB, .oraC, .oraD, .oraE, .oraH, .oraL, .oraM, .oraA,
     .cmpB, .cmpC, .cmpD, .cmpE, .cmpH, .cmpL, .cmpM, .cmpA] := by decide

theorem test_decode_unimplemented_rows : (List.range 64).all (fun n =>
    decodeByte (BitVec.ofNat 8 n) == .unimplemented (BitVec.ofNat 8 n) &&
    decodeByte (BitVec.ofNat 8 (0xC0 + n)) == .unimplemented (BitVec.ofNat 8 (0xC0 + n))) = true := by decide

theorem test_decode_bits : decode [0b01111000#8, 0xAA#8] = .ok (.movAB, [0xAA#8]) ∧
    decode [0b01110101#8] = .ok (.movML, []) ∧ decode [0b10111110#8] = .ok (.cmpM, []) := ⟨rfl, rfl, rfl⟩
theorem test_decode_rejects_empty : decode [] = .error .noOpcodeByte := rfl
theorem test_encode_bits : encode .sbbA = [0b10011111#8] ∧ encode .movHM = [0b01100110#8] ∧
    encode .movMC = [0b01110001#8] ∧ encode (.unimplemented 0xC3#8) = [0xC3#8] := by decide
theorem test_decodeTableWord : decodeTableWord 8 0x7E = some .movAM ∧ decodeTableWord 16 0x0852 = some .movDD ∧
    decodeTableWord 8 0x76 = some (.unimplemented 0x76#8) := by decide

/-! Assembler syntax (R71, R12). -/

theorem test_assembly_mov : assemblyLines (.movRM .a) = ["MOV A,M"] := by decide
theorem test_assemble : assemble "MOV A,M" = some .movAM ∧ assemble "AND B" = some .anaB ∧
    assemble "MOV M,M" = none := by decide
theorem test_assembly_alias : assemblyLines (.alu .sbb (.reg .c)) = ["SBB C", "SBC C"] := by decide

/-! Small states. -/

/-- The state after one `Execute(op)` at `s`. -/
def after (op : Byte) (s : State) : Option State :=
  match step { s with host := [.execute op] } with
  | .next t => some t
  | .fault _ => none
  | .refused _ => none

/-- Reset with some registers. -/
def withRegs (b h l a : Byte) : State :=
  { State.reset with regs := { State.reset.regs with b := b, h := h, l := l, a := a } }

/-- One vector (A, B, F before; A, F after) of the register tables of L2.1: 4 cycles, nothing else changed. -/
def aluRegister (op : Byte) (v : Byte × Byte × Byte × Byte × Byte) : Bool :=
  after op { withRegs v.2.1 0 0 v.1 with flags := v.2.2.1 } ==
    some { withRegs v.2.1 0 0 v.2.2.2.1 with flags := v.2.2.2.2, cycles := 4 }

/-- One vector (A, memory[0x3040], F before; A, F after) of the memory table of L2.1: 7 cycles, memory unchanged. -/
def aluMemory (op : Byte) (v : Byte × Byte × Byte × Byte × Byte) : Bool :=
  after op { withRegs 0 0x30 0x40 v.1 with flags := v.2.2.1, mem := [(0x3040, v.2.1)] } ==
    some { withRegs 0 0x30 0x40 v.2.2.2.1 with flags := v.2.2.2.2, mem := [(0x3040, v.2.1)], cycles := 7 }

/-! The ALU. -/

/-- 95_test_vectors.md V2, V6, V8, V9, V84. -/
theorem test_add_register : ([(0xFF, 0x01, 0x00, 0x00, 0xAA), (0x7F, 0x01, 0x00, 0x80, 0x09), (0xFF, 0xFF, 0x00, 0xFE, 0x89), (0x12, 0x34, 0x80, 0x46, 0x00), (0x01, 0x01, 0x54, 0x02, 0x54)] :
    List (Byte × Byte × Byte × Byte × Byte)).all (aluRegister 0x80#8) = true := by decide

/-- 95_test_vectors.md V11, V12, V14, V15. -/
theorem test_adc_register : ([(0xFF, 0x00, 0x80, 0x00, 0xAA), (0x0E, 0x01, 0x80, 0x10, 0x08), (0xFF, 0xFF, 0x80, 0xFF, 0xA9), (0x12, 0x34, 0x00, 0x46, 0x00)] :
    List (Byte × Byte × Byte × Byte × Byte)).all (aluRegister 0x88#8) = true := by decide

/-- 95_test_vectors.md V18, V19, V20, V85. -/
theorem test_sub_register : ([(0x00, 0x01, 0x00, 0xFF, 0xA9), (0x10, 0x01, 0x00, 0x0F, 0x28), (0x01, 0x10, 0x00, 0xF1, 0x81), (0x01, 0x01, 0xFF, 0x00, 0x76)] :
    List (Byte × Byte × Byte × Byte × Byte)).all (aluRegister 0x90#8) = true := by decide

/-- 95_test_vectors.md V24, V26, V29, V30. -/
theorem test_sbb_register : ([(0x00, 0x00, 0x80, 0xFF, 0xA9), (0x10, 0x0F, 0x80, 0x00, 0x2A), (0x80, 0x7F, 0x00, 0x01, 0x08), (0xFF, 0xFF, 0x80, 0xFF, 0xA9)] :
    List (Byte × Byte × Byte × Byte × Byte)).all (aluRegister 0x98#8) = true := by decide

/-- 95_test_vectors.md V31, V33, V35. -/
theorem test_ana_register : ([(0xFF, 0x00, 0x80, 0x00, 0x22), (0xFF, 0xFF, 0x80, 0xFF, 0x21), (0x0F, 0x08, 0x00, 0x08, 0x00)] :
    List (Byte × Byte × Byte × Byte × Byte)).all (aluRegister 0xA0#8) = true := by decide

/-- 95_test_vectors.md V36, V37, V86. -/
theorem test_xra_register : ([(0xFF, 0xFF, 0x80, 0x00, 0x22), (0xAA, 0x55, 0x00, 0xFF, 0x21), (0x00, 0x00, 0x54, 0x00, 0x76)] :
    List (Byte × Byte × Byte × Byte × Byte)).all (aluRegister 0xA8#8) = true := by decide

/-- 95_test_vectors.md V41, V42, V45. -/
theorem test_ora_register : ([(0x00, 0x00, 0x80, 0x00, 0x22), (0x0F, 0xF0, 0x00, 0xFF, 0x21), (0x07, 0x00, 0x00, 0x07, 0x00)] :
    List (Byte × Byte × Byte × Byte × Byte)).all (aluRegister 0xB0#8) = true := by decide

/-- 95_test_vectors.md V46, V47, V49, V87. -/
theorem test_cmp_register : ([(0x05, 0x05, 0x00, 0x05, 0x22), (0x05, 0x06, 0x00, 0x05, 0xA9), (0x00, 0xFF, 0x00, 0x00, 0x88), (0x00, 0x01, 0xD4, 0x00, 0xFD)] :
    List (Byte × Byte × Byte × Byte × Byte)).all (aluRegister 0xB8#8) = true := by decide

/-- 95_test_vectors.md V76. -/
theorem test_add_memory : aluMemory 0x86#8 (0x44, 0xBC, 0x00, 0x00, 0xAA) = true := by decide

/-- 95_test_vectors.md V77. -/
theorem test_adc_memory : aluMemory 0x8E#8 (0x44, 0xBB, 0x80, 0x00, 0xAA) = true := by decide

/-- 95_test_vectors.md V78. -/
theorem test_sub_memory : aluMemory 0x96#8 (0x44, 0x45, 0x00, 0xFF, 0xA9) = true := by decide

/-- 95_test_vectors.md V79. -/
theorem test_sbb_memory : aluMemory 0x9E#8 (0x44, 0x44, 0x80, 0xFF, 0xA9) = true := by decide

/-- 95_test_vectors.md V80. -/
theorem test_ana_memory : aluMemory 0xA6#8 (0x3C, 0xF3, 0x00, 0x30, 0x20) = true := by decide

/-- 95_test_vectors.md V81. -/
theorem test_xra_memory : aluMemory 0xAE#8 (0x3C, 0xF3, 0x00, 0xCF, 0x21) = true := by decide

/-- 95_test_vectors.md V82. -/
theorem test_ora_memory : aluMemory 0xB6#8 (0x3C, 0xF3, 0x00, 0xFF, 0x21) = true := by decide

/-- 95_test_vectors.md V83. -/
theorem test_cmp_memory : aluMemory 0xBE#8 (0x44, 0x45, 0x00, 0x44, 0xA9) = true := by decide

/-- 95_test_vectors.md V59, V62, V56 and V74: the accumulator with itself. -/
theorem test_alu_with_itself :
    after 0x97#8 { withRegs 0 0 0 0x8C with flags := 0x80 } =
      some { withRegs 0 0 0 0x00 with flags := 0x22, cycles := 4 } ∧
    after 0x9F#8 { withRegs 0 0 0 0x8C with flags := 0x80 } =
      some { withRegs 0 0 0 0xFF with flags := 0xA9, cycles := 4 } ∧
    after 0x8F#8 { withRegs 0 0 0 0x8C with flags := 0x80 } =
      some { withRegs 0 0 0 0x19 with flags := 0x88, cycles := 4 } ∧
    after 0xBF#8 { withRegs 0 0 0 0x8C with flags := 0x80 } =
      some { withRegs 0 0 0 0x8C with flags := 0x22, cycles := 4 } := by decide

/-! Data movement. -/

/-- 95_test_vectors.md V105, V106: MOV L,H and MOV H,L. -/
theorem test_mov_register :
    after 0x6C#8 (withRegs 0 0xAB 0xCD 0) = some { withRegs 0 0xAB 0xAB 0 with cycles := 5 } ∧
    after 0x65#8 (withRegs 0 0xAB 0xCD 0) = some { withRegs 0 0xCD 0xCD 0 with cycles := 5 } := by decide

/-- 95_test_vectors.md V109, V110, V108: the address is formed before H or L is written; the top of memory. -/
theorem test_mov_from_memory :
    after 0x66#8 { withRegs 0 0x20 0x00 0 with mem := [(0x2000, 0x42)] } =
      some { withRegs 0 0x42 0x00 0 with mem := [(0x2000, 0x42)], cycles := 7 } ∧
    after 0x6E#8 { withRegs 0 0x20 0x00 0 with mem := [(0x2000, 0x42)] } =
      some { withRegs 0 0x20 0x42 0 with mem := [(0x2000, 0x42)], cycles := 7 } ∧
    after 0x46#8 { withRegs 0 0xFF 0xFF 0 with mem := [(0xFFFF, 0x5A)], flags := 0xFF } =
      some { withRegs 0x5A 0xFF 0xFF 0 with mem := [(0xFFFF, 0x5A)], flags := 0xFF, cycles := 7 } := by decide

/-- 95_test_vectors.md V112, V113, V114: H and L as the stored register, and address 0. -/
theorem test_mov_to_memory :
    after 0x74#8 (withRegs 0 0x20 0x05 0x99) =
      some { withRegs 0 0x20 0x05 0x99 with mem := [(0x2005, 0x20)], cycles := 7 } ∧
    after 0x75#8 (withRegs 0 0x20 0x05 0x99) =
      some { withRegs 0 0x20 0x05 0x99 with mem := [(0x2005, 0x05)], cycles := 7 } ∧
    after 0x70#8 { withRegs 0x3C 0 0 0 with mem := [(0, 0x11)], flags := 0xAA } =
      some { withRegs 0x3C 0 0 0 with mem := [(0, 0x3C)], flags := 0xAA, cycles := 7 } := by decide

/-- Storing the byte an unlisted cell reads as takes the cell out of the list. -/
theorem test_store_keeps_canonical_form :
    after 0x70#8 { withRegs 0 0 1 0 with mem := [(1, 0x11), (2, 0x22)] } =
      some { withRegs 0 0 1 0 with mem := [(2, 0x22)], cycles := 7 } := by decide

/-! Unimplemented opcodes. -/

/-- 95_test_vectors.md V117 (0x76 does not halt) and V121 (OOS_COST[0x00] = 4). -/
theorem test_unimplemented :
    after 0x76#8 { withRegs 1 5 6 7 with flags := 0x8B, cycles := 19, mem := [(0x0506, 0xEE)] } =
      some { withRegs 1 5 6 7 with flags := 0x8B, cycles := 19, mem := [(0x0506, 0xEE)], reports := [0x76] } ∧
    after 0x00#8 { State.reset with oosCost := [(0x00, 4)] } =
      some { State.reset with oosCost := [(0x00, 4)], cycles := 4, reports := [0x00] } := by decide

/-! The caller and its driver. -/

/-- The next state of a step, if it answers one. -/
def stepped (s : State) : Option State :=
  match step s with
  | .next t => some t
  | .fault _ => none
  | .refused _ => none

/-- 95_test_vectors.md P6: the driver's pc wraps at the top of memory. -/
theorem test_driver_wraps :
    stepped { withRegs 1 0 0 0xFF with pc := 0xFFFF, mem := [(0, 0x80), (0xFFFF, 0x88)] } =
      some { withRegs 1 0 0 0x00 with pc := 0x0000, mem := [(0, 0x80), (0xFFFF, 0x88)], flags := 0xAA, cycles := 4 } := by
  decide

/-- 95_test_vectors.md P4: the store of step 1 is what step 3 fetches. -/
theorem test_driver_sees_store :
    ((stepped { withRegs 5 1 2 0x80 with pc := 0x0100, mem := [(0x100, 0x77), (0x101, 0x78)] }).bind stepped).bind stepped =
      some { withRegs 5 1 2 0x0A with
        pc := 0x0103, mem := [(0x100, 0x77), (0x101, 0x78), (0x102, 0x80)], flags := 0x20, cycles := 16 } := by
  decide

/-- Init with a snapshot in the order B,C,D,E,H,L,A (R160): memory and the caller's other moves stay. -/
theorem test_init_snapshot :
    stepped { State.reset with
        flags := 0xFF, cycles := 9, mem := [(3, 1)], host := [.init (some #v[1, 2, 3, 4, 5, 6, 7]), .inspect] } =
      some { State.reset with
        regs := { b := 1, c := 2, d := 3, e := 4, h := 5, l := 6, a := 7 }, mem := [(3, 1)], host := [.inspect] } := by
  decide

/-- The register dump of R150 is in index order. -/
theorem test_register_dump : (withRegs 1 5 6 7).registerDump =
    [("B", 1), ("C", 0), ("D", 0), ("E", 0), ("H", 5), ("L", 6), ("A", 7)] := by decide

theorem test_reset_memory_canonical : State.reset.mem.wf = true := by decide

/-- A table word placed by withFetchWord is what the very next step runs. -/
theorem test_withFetchWord : stepped (State.reset.withFetchWord 8 0x97) =
    some { State.reset with mem := [(0, 0x97)], pc := 1, flags := 0x22, cycles := 4 } := by decide

/-! Witnesses: for every obligation with hypotheses, values that meet them. -/

theorem witness_DecodeOfEncodeIsIdentity : (Instr.unimplemented 0x76#8).wellFormed = true := by decide
theorem witness_UnimplementedOpcodes : decodeByte 0x76#8 = .unimplemented 0x76#8 := by decide
theorem witness_FlagOperationsBitByBit : (7 : Nat) < 8 := by decide
theorem witness_RegisterWriteTouchesOneRegister : ∃ x y : RegFile, ∀ r : Reg, x.read r = y.read r :=
  ⟨State.reset.regs, State.reset.regs, fun _ => rfl⟩
theorem witness_EqualReadsAreEqualMemories : ∃ m m' : Memory, m ≠ [] ∧ m.wf = true ∧ m'.wf = true ∧
    ∀ a : Nat, m.read a = m'.read a :=
  ⟨[(5, 1)], [(5, 1)], by decide, by decide, by decide, fun _ => rfl⟩
theorem witness_MovNeverFailsNorWritesFlags : Reg.l ≠ Reg.h := by decide
theorem witness_CommonFlags_storing : AluOp.ora ≠ .cmp := by decide
theorem witness_CommonFlags_compare : AluOp.cmp = .cmp := rfl
theorem witness_AluReplacesAllFiveFlags : (0xD4#8).getLsbD 7 = ({ State.reset with flags := 0x8B }).flags.getLsbD 7 := by
  decide
theorem witness_ReservedFlagBitsNeverChange : (0xAB#8 : Byte) &&& 0x54#8 = 0x00#8 := by decide
theorem witness_FlagWritersAndReaders_nonreader : Instr.addB.form.readsFlags = false ∧
    Instr.addB.form.writesFlags = true ∧ Instr.movBB.form.writesFlags = false := by decide
theorem witness_FlagWritersAndReaders_carry : Instr.adcB.form.readsFlags = true ∧
    (0x80#8).getLsbD 7 = ({ State.reset with flags := 0xFF }).flags.getLsbD 7 := by decide
theorem witness_FlagWritersAndReaders_clear_and_set : (0x7F#8).getLsbD 7 = false ∧ (0x80#8).getLsbD 7 = true := by decide
theorem witness_AccumulatorWithItself : State.reset.flags.getLsbD 7 = false ∧
    ({ State.reset with flags := 0x80 }).flags.getLsbD 7 = true := by decide
theorem witness_CarryClear : ({ State.reset with flags := 0x7F }).flags.getLsbD 7 = false := by decide
theorem witness_OnlyTheDestinationRegisterChanges : Instr.movHM.form.destination ≠ some Reg.l ∧
    Instr.cmpB.form.destination ≠ some Reg.a := by decide
theorem witness_OnlyMovToMemoryWritesMemory : Instr.addM.form.stores = false ∧ Instr.movMH.form.stores = true ∧
    (0xFFFF : Nat) ≠ (withRegs 0 0xFF 0xFE 0).hl.toNat ∧ (0x10000 : Nat) ≤ 0x10000 := by decide
theorem witness_MemoryIsReadOnlyAtHL : Memory.read [(2, 7), (9, 9)] (withRegs 0 0 2 0).hl.toNat =
    ({ withRegs 0 0 2 0 with mem := [(2, 7)] }).mem.read (withRegs 0 0 2 0).hl.toNat := by decide

/-- A state in which every hypothesis about running holds: the driver is at MOV M,A and HL is the byte after it. -/
def running : State := { withRegs 0 0 1 0x80 with mem := [(0, 0x77)], flags := 0x80 }

theorem witness_step : step running = .next { running with
    mem := [(0, 0x77), (1, 0x80)], pc := 1, cycles := 7 } := rfl
theorem witness_DriverStep : running.admitted = true ∧ running.host = [] ∧
    decode [running.mem.read running.pc.toNat] = .ok (.movMA, []) := ⟨by decide, rfl, rfl⟩
theorem witness_ExecuteMove : ({ running with host := [.execute 0x80#8] }).admitted = true ∧
    ({ running with host := [.execute 0x80#8] }).host = .execute 0x80#8 :: [] ∧
    decode [0x80#8] = .ok (.addB, []) := ⟨by decide, rfl, rfl⟩
theorem witness_CallerMoves_init : ({ running with host := [.init none] }).admitted = true ∧
    ({ running with host := [.init none] }).host = .init none :: [] := ⟨by decide, rfl⟩
theorem witness_CallerMoves_inspect : ({ running with host := [.inspect] }).admitted = true ∧
    ({ running with host := [.inspect] }).host = .inspect :: [] := ⟨by decide, rfl⟩
theorem witness_CallerMoves_poke : ({ running with host := [.poke 65535 1] }).admitted = true ∧
    ({ running with host := [.poke 65535 1] }).host = .poke 65535 1 :: [] ∧ 65535 < running.memSize := by decide
theorem witness_Refused_memory : ({ running with memSize := 65535 }).memSize < 65536 := by decide

/-- An OOS_COST with no zero entry. -/
def allCosted : OosCost := (List.range 256).map fun n => (BitVec.ofNat 8 n, 4)

theorem witness_Refused_costs : 65536 ≤ running.memSize ∧
    ∀ op : Byte, unimplementedOpcode op = true → oosCostOf allCosted op ≠ 0 := ⟨by decide, by decide⟩
theorem witness_Refused_poke : ({ running with host := [.poke 65536 1] }).admitted = true ∧
    ({ running with host := [.poke 65536 1] }).host = .poke 65536 1 :: [] ∧ running.memSize ≤ 65536 := by decide
theorem witness_AdmittedStepAlwaysGoesOn : 65536 ≤ running.memSize ∧ unimplementedOpcode 0xFF#8 = true ∧
    oosCostOf running.oosCost 0xFF#8 = 0 ∧ running.nextAllowed = true ∧
    ({ running with host := [.poke 65535 1] }).nextAllowed = true := by decide
theorem witness_StepKeepsTheInvariant : running.Inv ∧ ∃ t : State, step running = .next t :=
  ⟨⟨by decide, by decide, by decide⟩, _, witness_step⟩
theorem witness_StepKeepsReservedFlagBitsZero : running.flags &&& 0x54#8 = 0x00#8 := by decide
theorem witness_StepKeepsFlagsConsistent : flagsConsistent running.flags ∧ flagsConsistent 0x22#8 :=
  ⟨⟨by decide, by decide⟩, by decide, by decide⟩
theorem witness_CyclesNeverDecrease_init :
    ∃ t : State, step { running with cycles := 5, host := [.init none] } = .next t ∧ t.cycles = 0 := ⟨_, rfl, rfl⟩
theorem witness_CyclesNeverDecrease_other : (∃ t : State, step running = .next t) ∧
    ∀ (v : Option (Vector Byte 7)) (rest : List HostMove), running.host ≠ .init v :: rest :=
  ⟨⟨_, witness_step⟩, fun _ _ h => (by cases h)⟩
theorem witness_CyclesSumOverExecuteCalls :
    ({ running with host := [.execute 0x41#8, .execute 0x7E#8, .inspect] }).admitted = true ∧
    ({ running with host := [.execute 0x41#8, .execute 0x7E#8, .inspect] }).host =
      [0x41#8, 0x7E#8].map HostMove.execute ++ [.inspect] := by decide
theorem witness_StoreIsSeenByTheNextFetch : running.admitted = true ∧ running.host = [] ∧
    decodeByte (running.mem.read running.pc.toNat) = Instr.ofForm (.movMR .a) ∧ running.hl = running.pc + 1#16 := by
  decide

end Sys2Proof.Tests
end

/-! SUPPORT. The flag byte: what each operation of R26 does to the reserved and to the meaningful bits, and what an ALU
operation makes of its carry-in (R27, R91). -/
section
namespace Sys2Proof.Machine

/-! The flag operations on the reserved bits (R25) and on the five meaningful ones (R24). -/

theorem flagReplace_reserved (f v : Byte) : flagReplace f v &&& maskRSV = f &&& maskRSV := by
  ext n hn
  cases h : maskRSV[n] <;> simp [flagReplace, h]

theorem flagReplace_meaningful (f v : Byte) : flagReplace f v &&& ~~~maskRSV = v &&& ~~~maskRSV := by
  ext n hn
  cases h : maskRSV[n] <;> simp [flagReplace, h]

/-- A mask inside the meaningful bits is zero at every reserved bit. -/
theorem getElem_of_mask_meaningful {m : Byte} (hm : m &&& maskRSV = 0#8) {n : Nat} (hn : n < 8)
    (hr : maskRSV[n] = true) : m[n] = false := by
  have hbit : (m &&& maskRSV)[n] = false := by simp [hm]
  simpa [hr] using hbit

theorem flagSet_reserved (f : Byte) {m : Byte} (hm : m &&& maskRSV = 0#8) :
    flagSet f m &&& maskRSV = f &&& maskRSV := by
  ext n hn
  cases h : maskRSV[n] with
  | false => simp [h]
  | true => simp [flagSet, getElem_of_mask_meaningful hm hn h]

theorem flagClear_reserved (f : Byte) {m : Byte} (hm : m &&& maskRSV = 0#8) :
    flagClear f m &&& maskRSV = f &&& maskRSV := by
  ext n hn
  cases h : maskRSV[n] with
  | false => simp [h]
  | true => simp [flagClear, getElem_of_mask_meaningful hm hn h]

theorem effect_flags_reserved (k : Form) (s : State) : (effect k s).flags &&& maskRSV = s.flags &&& maskRSV := by
  rw [effect_flags]
  split
  · exact flagReplace_reserved _ _
  · rfl

/-- The writers of F (R27), form by form. -/
theorem effect_flags_written (k : Form) (s : State) :
    (k.writesFlags = false → (effect k s).flags = s.flags) ∧
    (k.writesFlags = true → ∃ v : Byte, (effect k s).flags = flagReplace s.flags v) := by
  cases k with
  | alu o src => exact ⟨nofun, fun _ => ⟨_, effect_flags _ s⟩⟩
  | movRR | movRM | movMR | unimplemented => exact ⟨fun _ => effect_flags _ s, nofun⟩

/-! Where an ALU operation's carry-in comes from. -/

theorem flagIsSet_maskCY (f : Byte) : flagIsSet f maskCY = f.getLsbD 7 := by
  have hand : f &&& maskCY = if f.getLsbD 7 then maskCY else 0#8 := BitVec.and_twoPow f 7
  rw [flagIsSet, hand]
  cases f.getLsbD 7 <;> rfl

theorem carryIn_eq_bit (s : State) : s.carryIn = s.flags.getLsbD 7 := flagIsSet_maskCY s.flags

/-! The state with another flag byte: every input of an instruction but the carry-in reads as before. -/

@[simp] theorem setFlags_getReg (s : State) (f : Byte) (r : Reg) : (s.setFlags f).getReg r = s.getReg r := rfl
@[simp] theorem setFlags_hl (s : State) (f : Byte) : (s.setFlags f).hl = s.hl := rfl
@[simp] theorem setFlags_loadByte (s : State) (f : Byte) (x : Addr) : (s.setFlags f).loadByte x = s.loadByte x := rfl
@[simp] theorem setFlags_operand (s : State) (f : Byte) (src : Operand) : (s.setFlags f).operand src = s.operand src :=
  operand_of_regs_mem s _ rfl rfl src
theorem setFlags_carryIn (s : State) (f : Byte) : (s.setFlags f).carryIn = f.getLsbD 7 := carryIn_eq_bit _

/-! What the carry-in goes into: nothing but ADC and SBB, whose results it changes. -/

/-- The three columns of R94 that could hold cin do not, but for the rows of ADC and SBB. -/
theorem alu_columns_ignore_carry {o : AluOp} {src : Operand} (h : (Form.alu o src).readsFlags = false)
    (a b : Byte) (c d : Bool) : aluWide o a b c = aluWide o a b d ∧ aluCarry o a b c = aluCarry o a b d ∧
      aluAux o a b c = aluAux o a b d := by
  cases o with
  | adc | sbb => cases h
  | add | sub | ana | xra | ora | cmp => exact ⟨rfl, rfl, rfl⟩

/-- The readers of F (R27): the carry-in matters to ADC and SBB alone. -/
theorem alu_same_of_carry {o : AluOp} {src : Operand} {c d : Bool}
    (h : (Form.alu o src).readsFlags = false ∨ c = d) (a b : Byte) :
    aluResult o a b c = aluResult o a b d ∧ aluFlags o a b c = aluFlags o a b d := by
  rcases h with h | rfl
  · obtain ⟨hw, hc, hx⟩ := alu_columns_ignore_carry h a b c d
    have hres : aluResult o a b c = aluResult o a b d := congrArg trunc8 hw
    exact ⟨hres, by rw [aluFlags, aluFlags, hres, hc, hx]⟩
  · exact ⟨rfl, rfl⟩

theorem trunc8_add_one_ne (v : Int) : trunc8 (v + 1) ≠ trunc8 v := by
  have hadd : trunc8 (v + 1) = trunc8 v + 1#8 := BitVec.ofInt_add v 1
  rw [hadd]
  bv_omega

theorem aluResult_adc_carry_ne (a b : Byte) : aluResult .adc a b false ≠ aluResult .adc a b true := by
  simpa [aluResult, aluWide] using (trunc8_add_one_ne (a.toNat + b.toNat)).symm

theorem aluResult_sbb_carry_ne (a b : Byte) : aluResult .sbb a b false ≠ aluResult .sbb a b true := by
  simpa [aluResult, aluWide] using trunc8_add_one_ne (a.toNat - b.toNat - 1)

/-! Two runs of one form from states that differ in F alone. -/

theorem effect_setFlags_regs (k : Form) (s : State) (f : Byte)
    (h : k.readsFlags = false ∨ (s.setFlags f).carryIn = s.carryIn) :
    (effect k (s.setFlags f)).regs = (effect k s).regs := by
  cases k with
  | alu o src => simp [effect_regs, (alu_same_of_carry h (s.getReg .a) (s.operand src)).1]
  | movRR | movRM | movMR | unimplemented => simp [effect_regs]

theorem effect_setFlags_mem (k : Form) (s : State) (f : Byte) : (effect k (s.setFlags f)).mem = (effect k s).mem := by
  cases k <;> simp [effect_mem]

theorem effect_setFlags_reports (k : Form) (s : State) (f : Byte) :
    (effect k (s.setFlags f)).reports = (effect k s).reports := by
  cases k <;> simp [effect_reports]

/-- An ALU instruction's five flags do not depend on the flag byte it finds, but for the carry that ADC and SBB read. -/
theorem effect_setFlags_meaningful (k : Form) (s : State) (f : Byte) (hw : k.writesFlags = true)
    (h : k.readsFlags = false ∨ (s.setFlags f).carryIn = s.carryIn) :
    (effect k (s.setFlags f)).flags &&& ~~~maskRSV = (effect k s).flags &&& ~~~maskRSV := by
  cases k with
  | alu o src => simp [effect_flags, flagReplace_meaningful, (alu_same_of_carry h (s.getReg .a) (s.operand src)).2]
  | movRR | movRM | movMR | unimplemented => cases hw

/-- An operation that stores a result in which the carry-in shows leaves different accumulators for CY clear and CY set. -/
theorem effect_acc_ne_of_carry {o : AluOp} (src : Operand) (s : State) {f g : Byte} (hw : aluWritesA o = true)
    (hne : ∀ a b : Byte, aluResult o a b false ≠ aluResult o a b true)
    (hf : (s.setFlags f).carryIn = false) (hg : (s.setFlags g).carryIn = true) :
    (effect (.alu o src) (s.setFlags f)).regs.read .a ≠ (effect (.alu o src) (s.setFlags g)).regs.read .a := by
  simpa [effect_regs, hw, hf, hg] using hne (s.getReg .a) (s.operand src)

end Sys2Proof.Machine
end

/-! PROOFS. The register file (R21), the reserved flag bits (R25), and who writes and reads the flags (R27). -/
section
namespace Sys2Proof.Machine

/-- The register file is the seven values its reads give. -/
theorem RegFile.ext_read (x y : RegFile) (h : ∀ r : Reg, x.read r = y.read r) : x = y := by
  rw [RegFile.mk.injEq]
  exact ⟨h .b, h .c, h .d, h .e, h .h, h .l, h .a⟩

/-- Settles O7: the read-after-write law of the register file, its extensionality, and the closed list of names. -/
theorem registerWriteTouchesOneRegister : Obligations.RegisterWriteTouchesOneRegister :=
  ⟨RegFile.read_write, RegFile.ext_read, fun r => by cases r <;> decide⟩

/-- Settles O28: an instruction's only write of F is one replace, and each flag operation keeps the reserved bits. -/
theorem reservedFlagBitsNeverChange : Obligations.ReservedFlagBitsNeverChange :=
  ⟨fun i s => ⟨effect i.form s, exec_eq_effect i s, effect_flags_reserved i.form s⟩,
    fun f _ hm => ⟨flagSet_reserved f hm, flagClear_reserved f hm⟩,
    flagReplace_reserved,
    fun s v => by simp⟩

/-- Settles O29: F is written by an ALU instruction's replace alone, and of F only the carry-in is read, by ADC and SBB. -/
theorem flagWritersAndReaders : Obligations.FlagWritersAndReaders := by
  refine ⟨fun i s => ?_, fun i s f h => ?_, fun src s f g hf hg => ?_⟩
  · exact ⟨effect i.form s, exec_eq_effect i s, effect_flags_written i.form s⟩
  · rw [← setFlags_carryIn s f, ← carryIn_eq_bit] at h
    have hcycles : (effect i.form (s.setFlags f)).cycles = (effect i.form s).cycles := by simp [effect_cycles]
    exact ⟨effect i.form s, effect i.form (s.setFlags f), exec_eq_effect i s, exec_eq_effect i _,
      effect_setFlags_regs _ s f h, effect_setFlags_mem _ s f, hcycles, effect_setFlags_reports _ s f,
      fun hw => effect_setFlags_meaningful _ s f hw h⟩
  · rw [← setFlags_carryIn s f] at hf
    rw [← setFlags_carryIn s g] at hg
    exact ⟨⟨_, _, exec_ofForm _ _, exec_ofForm _ _, effect_acc_ne_of_carry src s rfl aluResult_adc_carry_ne hf hg⟩,
      ⟨_, _, exec_ofForm _ _, exec_ofForm _ _, effect_acc_ne_of_carry src s rfl aluResult_sbb_carry_ne hf hg⟩⟩

end Sys2Proof.Machine
end

/-! PROOFS. Data movement (R83): the registers and flags a MOV keeps. -/
section
namespace Sys2Proof.Machine

/-- A form changes no register but its destination (R22, R83). -/
theorem effect_read_of_ne_destination {k : Form} {r : Reg} (h : k.destination ≠ some r) (s : State) :
    (effect k s).regs.read r = s.regs.read r := by
  rw [effect_regs]
  cases k with
  | movRR dst _ | movRM dst => exact RegFile.read_write_other _ _ _ _ (ne_of_apply_ne some h).symm
  | movMR _ | unimplemented _ => rfl
  | alu o src =>
    cases o with
    | cmp => rfl
    | add | adc | sub | sbb | ana | xra | ora =>
      exact RegFile.read_write_other _ _ _ _ (ne_of_apply_ne some h).symm

/-- What R83 says of a MOV holds of every form that writes no flags. -/
theorem exec_ofForm_keeps_flags_and_regs (k : Form) (hk : k.writesFlags = false) (s : State) :
    ∃ t : State, exec (Instr.ofForm k) s = .next t ∧ t.flags = s.flags ∧
      ∀ r : Reg, k.destination ≠ some r → t.regs.read r = s.regs.read r :=
  ⟨effect k s, exec_ofForm k s, (effect_flags_written k s).1 hk, fun _ h => effect_read_of_ne_destination h s⟩

/-- Settles O17: each MOV form writes no flags, and its destination is `dst`, or none for MOV M,r. -/
theorem movNeverFailsNorWritesFlags : Obligations.MovNeverFailsNorWritesFlags := by
  refine ⟨fun dst src s => ?_, fun dst s => ?_, fun src s => ?_⟩
  · obtain ⟨t, hexec, hflags, hregs⟩ := exec_ofForm_keeps_flags_and_regs (.movRR dst src) rfl s
    exact ⟨t, hexec, hflags, fun r hr => hregs r (mt Option.some.inj hr.symm)⟩
  · obtain ⟨t, hexec, hflags, hregs⟩ := exec_ofForm_keeps_flags_and_regs (.movRM dst) rfl s
    exact ⟨t, hexec, hflags, fun r hr => hregs r (mt Option.some.inj hr.symm)⟩
  · obtain ⟨t, hexec, hflags, hregs⟩ := exec_ofForm_keeps_flags_and_regs (.movMR src) rfl s
    exact ⟨t, hexec, hflags, fun r => hregs r nofun⟩

end Sys2Proof.Machine
end

/-! SUPPORT. The five flags of an ALU operation (R92, R93): where `replace` puts them in F, that the parity computed from the
population count is the exclusive OR of the result's bits, and which result they are taken from. -/
section
namespace Sys2Proof.Machine

/-! A packed flag byte: each flag at its place (R24), nothing at the reserved bits. -/

theorem flagBit_eq_ite (v : Bool) (n : Nat) : flagBit v n = if v then 1#8 <<< n else 0#8 := by
  cases v <;> simp [flagBit]

/-- The shifts of R93 are the masks of R24. -/
theorem packFlags_eq_masks (cy p ac z n : Bool) : packFlags cy p ac z n =
    (if cy then maskCY else 0#8) ||| (if p then maskP else 0#8) ||| (if ac then maskAC else 0#8) |||
      (if z then maskZ else 0#8) ||| (if n then maskS else 0#8) := by
  simp only [packFlags, flagBit_eq_ite]
  rfl

theorem packFlags_meaningful (cy p ac z n : Bool) :
    packFlags cy p ac z n &&& ~~~maskRSV = packFlags cy p ac z n := by
  revert cy p ac z n
  decide

/-- `replace` by a packed flag byte: the reserved bits of F, and the five flags at their masks. -/
theorem flagReplace_packFlags (f : Byte) (cy p ac z n : Bool) : flagReplace f (packFlags cy p ac z n) =
    (f &&& maskRSV) ||| (if cy then maskCY else 0#8) ||| (if p then maskP else 0#8) |||
      (if ac then maskAC else 0#8) ||| (if z then maskZ else 0#8) ||| (if n then maskS else 0#8) := by
  rw [flagReplace, packFlags_meaningful, packFlags_eq_masks]
  simp only [BitVec.or_assoc]

/-- Each flag of a packed byte is found at its place in F after `replace`. -/
theorem flagReplace_packFlags_getLsbD (f : Byte) (cy p ac z n : Bool) :
    (flagReplace f (packFlags cy p ac z n)).getLsbD 7 = cy ∧ (flagReplace f (packFlags cy p ac z n)).getLsbD 5 = p ∧
      (flagReplace f (packFlags cy p ac z n)).getLsbD 3 = ac ∧ (flagReplace f (packFlags cy p ac z n)).getLsbD 1 = z ∧
      (flagReplace f (packFlags cy p ac z n)).getLsbD 0 = n := by
  simp [flagReplace, maskRSV, packFlags, flagBit]

/-! Parity (R92): the two ways to say that the number of one bits is even. -/

theorem even_toNat_add (b : Bool) (n : Nat) : ((b.toNat + n) % 2 == 0) = (b ^^ (n % 2 == 0)) := by
  cases b with
  | false => simp
  | true => rcases Nat.mod_two_eq_zero_or_one n with h | h <;> simp [Nat.add_mod, h]

theorem flagParity_eq_evenParity (v : Byte) : flagParity v = evenParity v := by
  have hcount : popcount v = (v.getLsbD 0).toNat + ((v.getLsbD 1).toNat + ((v.getLsbD 2).toNat + ((v.getLsbD 3).toNat +
      ((v.getLsbD 4).toNat + ((v.getLsbD 5).toNat + ((v.getLsbD 6).toNat + ((v.getLsbD 7).toNat + 0))))))) := rfl
  simp only [flagParity, hcount, even_toNat_add, evenParity, Bool.xor_assoc]
  simp

/-! What an ALU instruction leaves in A and in F. -/

theorem aluWritesA_iff (o : AluOp) : aluWritesA o = true ↔ o ≠ .cmp := by
  cases o <;> decide

theorem aluFlags_eq_packFlags (o : AluOp) (a b : Byte) (cin : Bool) : aluFlags o a b cin =
    packFlags (aluCarry o a b cin) (evenParity (aluResult o a b cin)) (aluAux o a b cin)
      (aluResult o a b cin == 0x00#8) ((aluResult o a b cin).getLsbD 7) := by
  rw [← flagParity_eq_evenParity]
  rfl

/-- An ALU instruction's one `replace` of F, for its result `res`. -/
theorem effect_alu_flags (o : AluOp) (src : Operand) (s : State) {res : Byte}
    (hres : aluResult o (s.getReg .a) (s.operand src) s.carryIn = res) :
    (effect (.alu o src) s).flags = flagReplace s.flags
      (packFlags (aluCarry o (s.getReg .a) (s.operand src) s.carryIn) (evenParity res)
        (aluAux o (s.getReg .a) (s.operand src) s.carryIn) (res == 0x00#8) (res.getLsbD 7)) := by
  subst hres
  rw [← aluFlags_eq_packFlags]
  exact effect_flags _ s

/-- The five flags an ALU instruction leaves, at their places in F. -/
theorem effect_alu_flags_getLsbD (o : AluOp) (src : Operand) (s : State) {res : Byte}
    (hres : aluResult o (s.getReg .a) (s.operand src) s.carryIn = res) :
    (effect (.alu o src) s).flags.getLsbD 7 = aluCarry o (s.getReg .a) (s.operand src) s.carryIn ∧
      (effect (.alu o src) s).flags.getLsbD 5 = evenParity res ∧
      (effect (.alu o src) s).flags.getLsbD 3 = aluAux o (s.getReg .a) (s.operand src) s.carryIn ∧
      (effect (.alu o src) s).flags.getLsbD 1 = (res == 0x00#8) ∧
      (effect (.alu o src) s).flags.getLsbD 0 = res.getLsbD 7 := by
  rw [effect_alu_flags o src s hres]
  exact flagReplace_packFlags_getLsbD _ _ _ _ _ _

/-- An operation other than CMP leaves its result in A. -/
theorem effect_alu_acc {o : AluOp} (ho : o ≠ .cmp) (src : Operand) (s : State) :
    (effect (.alu o src) s).regs.read .a = aluResult o (s.getReg .a) (s.operand src) s.carryIn := by
  simp [effect_regs, (aluWritesA_iff o).mpr ho]

theorem trunc8_sub (a b : Byte) : trunc8 ((a.toNat : Int) - b.toNat) = a - b := by
  apply BitVec.eq_of_toInt_eq
  rw [trunc8, BitVec.toInt_ofInt, BitVec.toInt_sub, BitVec.toInt_eq_toNat_bmod a, BitVec.toInt_eq_toNat_bmod b,
    Int.bmod_sub_bmod, Int.sub_bmod_bmod]

/-- The result of CMP, which it does not store (R92). -/
theorem aluResult_cmp (a b : Byte) (cin : Bool) : aluResult .cmp a b cin = a - b := trunc8_sub a b

theorem effect_cmp_acc (src : Operand) (s : State) : (effect (.alu .cmp src) s).regs.read .a = s.regs.read .a := by
  simp [effect_regs, aluWritesA]

end Sys2Proof.Machine
end

/-! PROOFS. The ALU's flags: which result Z, S and P are taken from (R92), and that all five are replaced at once (R93). -/
section
namespace Sys2Proof.Machine

/-- Settles O26: Z, S and P come from the operation's result, which is the new A but for CMP, and there the difference. -/
theorem commonFlagsOfTheResult : Obligations.CommonFlagsOfTheResult := by
  refine fun o src s => ⟨effect (.alu o src) s, exec_ofForm _ s, fun ho => ?_, fun ho => ?_⟩
  · obtain ⟨_, hp, _, hz, hs⟩ := effect_alu_flags_getLsbD o src s (effect_alu_acc ho src s).symm
    exact ⟨hz, hs, hp⟩
  · subst ho
    obtain ⟨_, hp, _, hz, hs⟩ := effect_alu_flags_getLsbD .cmp src s (aluResult_cmp _ _ _)
    exact ⟨effect_cmp_acc src s, hz, hs, hp⟩

/-- Settles O27: the new F is one `replace` by the five packed flags, and those do not depend on the F found but for CY. -/
theorem aluReplacesAllFiveFlags : Obligations.AluReplacesAllFiveFlags := by
  refine ⟨fun o src s => ?_, fun o src s f hf => ?_⟩
  · refine ⟨effect (.alu o src) s, exec_ofForm _ s, _, _, _, _, _, ?_, rfl, rfl, rfl, rfl, rfl⟩
    rw [effect_alu_flags o src s rfl, flagReplace_packFlags, carryIn_eq_bit]
    rfl
  · have hcarry : (s.setFlags f).carryIn = s.carryIn := by rw [setFlags_carryIn, carryIn_eq_bit, hf]
    exact ⟨effect (.alu o src) s, effect (.alu o src) (s.setFlags f), exec_ofForm _ s, exec_ofForm _ _,
      effect_setFlags_meaningful _ s f rfl (.inr hcarry)⟩

end Sys2Proof.Machine
end

/-! PROOFS. The cycle table (R120 to R123): its only part that is data is the parameter OOS_COST, which no move and no
instruction writes. -/
section
namespace Sys2Proof.Machine

/-- No step writes OOS_COST (R123), whichever of the caller's moves it was. -/
theorem step_oosCost {s t : State} (h : step s = .next t) : t.oosCost = s.oosCost := by
  obtain ⟨-, rfl⟩ | ⟨v, rest, -, rfl⟩ | ⟨op, rest, -, rfl⟩ | ⟨rest, -, rfl⟩ | ⟨a, v, rest, -, -, rfl⟩ := step_cases s t h
  · rw [effect_oosCost, advancePc_oosCost]
  · rw [init_oosCost, setHost_oosCost]
  · rw [effect_oosCost, setHost_oosCost]
  · exact setHost_oosCost s rest
  · exact setHost_oosCost s rest

/-- Settles O37: CT is a function of OOS_COST, which an instruction's effect, a step and Init each leave as it was. -/
theorem cycleTableIsNeverMutated : Obligations.CycleTableIsNeverMutated := by
  refine ⟨fun i s => ⟨effect i.form s, exec_eq_effect i s, fun op => ?_⟩, fun s t h op => ?_, fun s v op => ?_⟩
  · rw [effect_oosCost]
  · rw [step_oosCost h]
  · rw [init_oosCost]

end Sys2Proof.Machine
end

/-! PROOFS. Exceptions (R140): the core has none. -/
section
namespace Sys2Proof.Machine

/-- Settles O33: `exec` answers the instruction's effect, and `Fault` has no constructor that a step could answer. -/
theorem execNeverFails : Obligations.ExecNeverFails :=
  ⟨fun i s => ⟨effect i.form s, exec_eq_effect i s⟩, fun _ r => nomatch r⟩

end Sys2Proof.Machine
end

/-! SUPPORT. The opcode byte as its three fields (R61), and that the encoder's tables invert the decoder's. -/
section
namespace Sys2Proof

/-! The fields of an opcode byte `p ++ x ++ y`. -/

theorem familyBits_append (p : BitVec 2) (x y : BitVec 3) : (p ++ x ++ y : Byte).extractLsb' 6 2 = p := by
  have hdrop : (p ++ x ++ y).extractLsb' 6 2 = (p ++ x).extractLsb' 3 2 :=
    BitVec.extractLsb'_append_eq_of_le (by decide)
  exact hdrop.trans BitVec.extractLsb'_append_eq_left

@[simp] theorem fieldHigh_append (p : BitVec 2) (x y : BitVec 3) : fieldHigh (p ++ x ++ y) = x := by
  have hdrop : (p ++ x ++ y).extractLsb' 3 3 = (p ++ x).extractLsb' 0 3 :=
    BitVec.extractLsb'_append_eq_of_le (by decide)
  exact hdrop.trans BitVec.extractLsb'_append_eq_right

@[simp] theorem fieldLow_append (p : BitVec 2) (x y : BitVec 3) : fieldLow (p ++ x ++ y) = y :=
  BitVec.extractLsb'_append_eq_right

theorem append_fields (op : Byte) : op.extractLsb' 6 2 ++ fieldHigh op ++ fieldLow op = op := by
  have hhigh : op.extractLsb' 6 2 ++ op.extractLsb' 3 3 = op.extractLsb' 3 5 :=
    BitVec.extractLsb'_append_extractLsb'_eq_extractLsb' rfl
  have hall : op.extractLsb' 3 5 ++ op.extractLsb' 0 3 = op.extractLsb' 0 8 :=
    BitVec.extractLsb'_append_extractLsb'_eq_extractLsb' rfl
  rw [fieldHigh, fieldLow, hhigh, hall, BitVec.extractLsb'_eq_self]

/-! The field tables are inverse to each other, both ways. -/

@[simp] theorem decodeOperand_encodeOperand (src : Operand) : decodeOperand (encodeOperand src) = src := by
  rcases src with r | _
  · cases r <;> rfl
  · rfl

@[simp] theorem decodeOperand_encodeReg (r : Reg) : decodeOperand (encodeReg r) = .reg r :=
  decodeOperand_encodeOperand (.reg r)

theorem encodeOperand_decodeOperand (x : BitVec 3) : encodeOperand (decodeOperand x) = x := by
  revert x
  decide

theorem encodeOperand_surjective (x : BitVec 3) : ∃ src : Operand, encodeOperand src = x :=
  ⟨decodeOperand x, encodeOperand_decodeOperand x⟩

@[simp] theorem decodeAluOp_encodeAluOp (o : AluOp) : decodeAluOp (encodeAluOp o) = o := by
  cases o <;> rfl

theorem encodeAluOp_decodeAluOp (x : BitVec 3) : encodeAluOp (decodeAluOp x) = x := by
  revert x
  decide

/-! The decoder by family (R61, R64). -/

theorem decodeForm_movFamily (x y : BitVec 3) :
    decodeForm (0b01#2 ++ x ++ y) = decodeMov (0b01#2 ++ x ++ y) := by
  rw [decodeForm, familyBits_append]
  rfl

theorem decodeForm_aluFamily (x y : BitVec 3) :
    decodeForm (0b10#2 ++ x ++ y) = .alu (decodeAluOp x) (decodeOperand y) := by
  rw [decodeForm, familyBits_append, fieldHigh_append, fieldLow_append]
  rfl

/-- The fields of an in-scope form come back one by one; an unimplemented form is its own byte. -/
theorem decodeForm_encodeForm (f : Form) (hwf : ∀ op, f = .unimplemented op → unimplementedOpcode op = true) :
    decodeForm (encodeForm f) = f := by
  cases f with
  | movRR dst r => simp [encodeForm, decodeForm_movFamily, decodeMov]
  | movRM dst =>
    have hmem : decodeOperand 0b110#3 = .mem := rfl
    simp [encodeForm, decodeForm_movFamily, decodeMov, hmem]
  | movMR r =>
    have hfields : encodeForm (.movMR r) = 0b01#2 ++ encodeOperand .mem ++ encodeReg r := rfl
    simp [hfields, decodeForm_movFamily, decodeMov]
  | alu o src => simp [encodeForm, decodeForm_aluFamily]
  | unimplemented op => exact Laws.FormView.decodeForm_unimplemented op (hwf op rfl)

/-- An unimplemented form carries the byte it was decoded from. -/
theorem eq_of_decodeForm_eq_unimplemented {op op' : Byte} (h : decodeForm op = .unimplemented op') : op' = op := by
  unfold decodeForm decodeMov at h
  split at h
  · split at h
    · exact (Form.unimplemented.inj h).symm
    all_goals cases h
  · cases h
  · exact (Form.unimplemented.inj h).symm

/-- The opcodes with no source form are the 129 of R68. -/
theorem decodeForm_eq_unimplemented_iff (op : Byte) :
    decodeForm op = .unimplemented op ↔ unimplementedOpcode op = true := by
  refine ⟨?_, Laws.FormView.decodeForm_unimplemented op⟩
  revert op
  decide

/-- A MOVF opcode is the encoding of the form it decodes to; `01110110` decodes to the form that carries it. -/
theorem encodeForm_decodeMov (x y : BitVec 3) :
    encodeForm (decodeMov (0b01#2 ++ x ++ y)) = 0b01#2 ++ x ++ y := by
  obtain ⟨dst, rfl⟩ := encodeOperand_surjective x
  obtain ⟨src, rfl⟩ := encodeOperand_surjective y
  rw [decodeMov, fieldHigh_append, fieldLow_append, decodeOperand_encodeOperand, decodeOperand_encodeOperand]
  cases dst <;> cases src <;> rfl

theorem encodeForm_decodeForm (op : Byte) : encodeForm (decodeForm op) = op := by
  have hop := append_fields op
  by_cases hmov : op.extractLsb' 6 2 = 0b01#2
  · rw [← hop, hmov, decodeForm_movFamily, encodeForm_decodeMov]
  by_cases halu : op.extractLsb' 6 2 = 0b10#2
  · rw [← hop, halu, decodeForm_aluFamily, encodeForm, encodeAluOp_decodeAluOp, encodeOperand_decodeOperand]
  · have hother : decodeForm op = .unimplemented op := by
      rw [decodeForm]
      split
      · rename_i h; exact absurd (BitVec.eq_of_toNat_eq h) hmov
      · rename_i h; exact absurd (BitVec.eq_of_toNat_eq h) halu
      · rfl
    rw [hother, encodeForm]

/-! From forms to instructions. -/

theorem ofForm_form (i : Instr) : Instr.ofForm i.form = i := by
  cases i <;> rfl

@[simp] theorem decodeByte_form (op : Byte) : (decodeByte op).form = decodeForm op :=
  Machine.form_ofForm (decodeForm op)

theorem decodeByte_eq_iff (op : Byte) (f : Form) : decodeByte op = Instr.ofForm f ↔ decodeForm op = f := by
  constructor
  · intro h
    rw [← decodeByte_form, h, Machine.form_ofForm]
  · rintro rfl
    rfl

theorem wellFormed_iff (i : Instr) :
    i.wellFormed = true ↔ ∀ op, i.form = .unimplemented op → unimplementedOpcode op = true := by
  cases i with
  | unimplemented op => simp [Instr.wellFormed, Instr.carriedOpcode, Instr.form]
  | _ => exact ⟨nofun, fun _ => rfl⟩

end Sys2Proof
end

/-! PROOFS. The decoder and the encoder (R60 to R70). -/
section
namespace Sys2Proof

/-- Settles O5: decoding and encoding are inverse on well-formed forms, and the form determines the instruction. -/
theorem decodeOfEncodeIsIdentity : Obligations.DecodeOfEncodeIsIdentity := by
  intro i rest hwf
  have hform : decodeForm (encodeByte i) = i.form := decodeForm_encodeForm _ ((wellFormed_iff i).mp hwf)
  have hbyte : decodeByte (encodeByte i) = i := by rw [decodeByte, hform, ofForm_form]
  simp [encode, decode, hbyte]

/-- Settles O1: the tables of R62 and R20, read off. -/
theorem operandFieldTable : Obligations.OperandFieldTable := by
  unfold Obligations.OperandFieldTable
  decide

/-- Settles O2: fourteen single bytes, decoded. -/
theorem sampleOpcodesDecode : Obligations.SampleOpcodesDecode :=
  ⟨rfl, rfl, rfl, rfl, rfl, rfl, rfl, rfl, rfl, rfl, rfl, rfl, rfl, rfl⟩

/-- Settles O3: an opcode is its family bits and two fields, and each family decodes by its fields. -/
theorem patternsDecodeByFields : Obligations.PatternsDecodeByFields := by
  refine ⟨fun x y => ?_, fun y => ?_⟩
  · obtain ⟨dst, rfl⟩ := encodeOperand_surjective x
    obtain ⟨src, rfl⟩ := encodeOperand_surjective y
    rw [decodeByte, decodeForm_movFamily, decodeMov, fieldHigh_append, fieldLow_append, decodeOperand_encodeOperand,
      decodeOperand_encodeOperand]
    cases dst <;> cases src <;> rfl
  · have halu (ooo : BitVec 3) := congrArg Instr.ofForm (decodeForm_aluFamily ooo y)
    exact ⟨halu 0, halu 1, halu 2, halu 3, halu 4, halu 5, halu 6, halu 7⟩

/-- Settles O4: the decoder's unimplemented form is R68's set of opcodes, and it carries the byte decoded. -/
theorem unimplementedOpcodesAreTheOther129 : Obligations.UnimplementedOpcodesAreTheOther129 := by
  refine ⟨fun op => ?_, fun op op' h => ?_, ?_⟩
  · rw [show Instr.unimplemented op = Instr.ofForm (.unimplemented op) from rfl, decodeByte_eq_iff,
      decodeForm_eq_unimplemented_iff]
    simp [unimplementedOpcode, or_assoc]
  · exact eq_of_decodeForm_eq_unimplemented ((decodeByte_eq_iff op (.unimplemented op')).mp h)
  · rfl

/-- Settles O6: encoding a decoded form gives its byte, and an unimplemented form is decoded from an opcode of R68 only. -/
theorem encodeOfDecodeIsIdentity : Obligations.EncodeOfDecodeIsIdentity := by
  refine ⟨fun op rest => ⟨rfl, ?_, ?_⟩, rfl⟩
  · rw [encode, encodeByte, decodeByte_form, encodeForm_decodeForm]
  · rw [wellFormed_iff, decodeByte_form]
    intro op' h
    obtain rfl := eq_of_decodeForm_eq_unimplemented h
    exact (decodeForm_eq_unimplemented_iff op').mp h

end Sys2Proof
end

/-! SUPPORT. What each step keeps: the configuration, the memory's form and size, and the flag byte. -/
section
namespace Sys2Proof.Machine

/-! The effective address (R43). -/

theorem hl_eq_append (s : State) : s.hl = s.getReg .h ++ s.getReg .l := by
  rw [State.hl, BitVec.append_def, BitVec.shiftLeftZeroExtend_eq, BitVec.setWidth'_eq]

theorem hl_toNat (s : State) : s.hl.toNat = 256 * (s.regs.read .h).toNat + (s.regs.read .l).toNat := by
  rw [hl_eq_append, BitVec.toNat_append, ← Nat.shiftLeft_add_eq_or_of_lt (BitVec.isLt _), Nat.shiftLeft_eq, Nat.mul_comm]
  rfl

/-! The invariant depends on the two parameters and the memory alone. -/

theorem inv_of_eq {s t : State} (hcost : t.oosCost = s.oosCost) (hsize : t.memSize = s.memSize) (hmem : t.mem = s.mem)
    (h : s.Inv) : t.Inv := by
  simpa only [State.Inv, State.admitted, hcost, hsize, hmem] using h

theorem inv_of_write {s t : State} {a : Nat} {v : Byte} (hcost : t.oosCost = s.oosCost) (hsize : t.memSize = s.memSize)
    (hmem : t.mem = s.mem.write a v) (ha : a < s.memSize) (h : s.Inv) : t.Inv := by
  obtain ⟨hadm, hwf, hwithin⟩ := h
  refine ⟨?_, ?_, ?_⟩
  · simpa only [State.admitted, hcost, hsize] using hadm
  · rw [hmem]
    exact write_wf _ _ _ hwf
  · rw [hmem, hsize]
    exact write_within _ _ _ _ ha hwithin

/-- Every 16-bit address lies inside an admitted memory (R41). -/
theorem toNat_lt_memSize {s : State} (h : s.admitted = true) (a : Addr) : a.toNat < s.memSize :=
  Nat.lt_of_lt_of_le a.isLt ((admitted_iff s).mp h).1

theorem effect_inv (f : Form) {s : State} (h : s.Inv) : (effect f s).Inv := by
  have hcost := effect_oosCost f s
  have hsize := effect_memSize f s
  have hmem := effect_mem f s
  cases f with
  | movMR src => exact inv_of_write hcost hsize hmem (toNat_lt_memSize h.1 _) h
  | movRR | movRM | alu | unimplemented => exact inv_of_eq hcost hsize hmem h

/-- What an instruction can do to F: nothing, or one `replace` by the five flags of one ALU result (R27, R93). -/
theorem effect_flags_cases (f : Form) (s : State) : (effect f s).flags = s.flags ∨
    ∃ o a b cin, (effect f s).flags = flagReplace s.flags (aluFlags o a b cin) := by
  rw [effect_flags]
  cases f with
  | alu o src => exact .inr ⟨_, _, _, _, rfl⟩
  | movRR | movRM | movMR | unimplemented => exact .inl rfl

/-- What a step can do to F: what an instruction can, or clear it (Init). -/
theorem step_flags {s t : State} (h : step s = .next t) :
    t.flags = s.flags ∨ t.flags = 0x00#8 ∨
      ∃ o a b cin, t.flags = flagReplace s.flags (aluFlags o a b cin) := by
  obtain ⟨-, rfl⟩ | ⟨v, rest, -, rfl⟩ | ⟨op, rest, -, rfl⟩ | ⟨rest, -, rfl⟩ | ⟨a, v, rest, -, -, rfl⟩ := step_cases s t h
  · exact (effect_flags_cases _ s.advancePc).imp_right .inr
  · exact .inr (.inl rfl)
  · exact (effect_flags_cases _ (s.setHost rest)).imp_right .inr
  · exact .inl rfl
  · exact .inl rfl

/-- Z and S, and Z and P, come from one result (R92): a zero result has sign 0 and an even number of one bits. -/
theorem flagReplace_aluFlags_consistent (f : Byte) (o : AluOp) (a b : Byte) (cin : Bool) :
    flagsConsistent (flagReplace f (aluFlags o a b cin)) := by
  rw [aluFlags_eq_packFlags]
  generalize aluResult o a b cin = res
  obtain ⟨-, hp, -, hz, hs⟩ := flagReplace_packFlags_getLsbD f (aluCarry o a b cin) (evenParity res)
    (aluAux o a b cin) (res == 0x00#8) (res.getLsbD 7)
  rw [flagsConsistent, hp, hz, hs]
  constructor <;> intro hzero <;> rw [eq_of_beq hzero] <;> rfl

end Sys2Proof.Machine
end

/-! PROOFS. The invariants of a run: the configuration and the memory, the reserved flag bits, the consistency of the flags. -/
section
namespace Sys2Proof.Machine

/-- Settles O52: no move and no instruction writes a parameter, and every write to memory is at an address inside it. -/
theorem stepKeepsTheInvariant : Obligations.StepKeepsTheInvariant := by
  intro s t hinv h
  obtain ⟨-, rfl⟩ | ⟨v, rest, -, rfl⟩ | ⟨op, rest, -, rfl⟩ | ⟨rest, -, rfl⟩ | ⟨a, v, rest, -, ha, rfl⟩ := step_cases s t h
  · exact effect_inv _ (inv_of_eq (s := s) rfl rfl rfl hinv)
  · exact inv_of_eq (s := s) rfl rfl rfl hinv
  · exact effect_inv _ (inv_of_eq (s := s) rfl rfl rfl hinv)
  · exact inv_of_eq (s := s) rfl rfl rfl hinv
  · exact inv_of_write (s := s) (a := a) (v := v) rfl rfl rfl ha hinv

/-- Settles O53: a step keeps F, clears it, or writes it by one `replace`, which keeps the reserved bits. -/
theorem stepKeepsReservedFlagBitsZero : Obligations.StepKeepsReservedFlagBitsZero := by
  intro s t hzero h
  obtain hsame | hclear | ⟨o, a, b, cin, hreplace⟩ := step_flags h
  · rw [hsame, hzero]
  · rw [hclear]
    rfl
  · rw [hreplace]
    exact (flagReplace_reserved _ _).trans hzero

/-- Settles O54: a step keeps F, clears it, or takes Z, S and P from one ALU result. -/
theorem stepKeepsFlagsConsistent : Obligations.StepKeepsFlagsConsistent := by
  intro s t hcons h
  obtain hsame | hclear | ⟨o, a, b, cin, hreplace⟩ := step_flags h
  · rwa [hsame]
  · rw [hclear]
    exact ⟨nofun, nofun⟩
  · rw [hreplace]
    exact flagReplace_aluFlags_consistent _ _ _ _ _

/-- Settles O51: the reset state's fields, with 0x00 as an unimplemented opcode of cost 0. -/
theorem resetMeetsTheInvariants : Obligations.ResetMeetsTheInvariants := by
  have hadm : State.reset.admitted = true :=
    (admitted_iff _).mpr ⟨Nat.le_refl _, (someUncosted_iff _).mpr ⟨0x00#8, rfl, rfl⟩⟩
  exact ⟨⟨hadm, rfl, rfl⟩, rfl, nofun, nofun⟩

end Sys2Proof.Machine
end

/-! SUPPORT. The rows of R94's table as machine words: what each operation's result, CY and AC are, and all that an ALU
instruction leaves. -/
section
namespace Sys2Proof.Machine

/-! The flag byte bit by bit (R24, R26). -/

theorem flagIsSet_twoPow (f : Byte) (n : Nat) (hn : n < 8) : flagIsSet f (BitVec.twoPow 8 n) = f.getLsbD n := by
  have hpow : BitVec.twoPow 8 n ≠ 0#8 := fun h => by simpa [hn] using congrArg (BitVec.getLsbD · n) h
  rw [flagIsSet, BitVec.and_twoPow]
  cases f.getLsbD n <;> simp [hpow]

theorem maskRSV_getElem {n : Nat} (hn : n < 8) : maskRSV[n] = decide (n = 6 ∨ n = 4 ∨ n = 2) := by
  revert n
  decide

theorem packFlags_getLsbD (cy p ac z n : Bool) : (packFlags cy p ac z n).getLsbD 7 = cy ∧
    (packFlags cy p ac z n).getLsbD 5 = p ∧ (packFlags cy p ac z n).getLsbD 3 = ac ∧
    (packFlags cy p ac z n).getLsbD 1 = z ∧ (packFlags cy p ac z n).getLsbD 0 = n := by
  simp [packFlags, flagBit]

/-! The nibble and the bits of a byte as numbers. -/

theorem lowNibble_eq_mod (v : Byte) : lowNibble v = v.toNat % 16 := by
  rw [lowNibble, BitVec.toNat_and]
  exact Nat.and_two_pow_sub_one_eq_mod v.toNat 4

theorem getLsbD_eq_decide (v : Byte) (n : Nat) : v.getLsbD n = decide (v.toNat / 2 ^ n % 2 = 1) := by
  rw [← BitVec.testBit_toNat, Nat.testBit_eq_decide_div_mod_eq]

/-! The results of R94, as machine words. -/

theorem trunc8_natCast (n : Nat) : trunc8 (n : Int) = BitVec.ofNat 8 n := BitVec.ofInt_natCast 8 n

theorem trunc8_toNat (v : Byte) : trunc8 (v.toNat : Int) = v := by
  rw [trunc8_natCast, BitVec.ofNat_toNat, BitVec.setWidth_eq]

theorem aluResult_add (a b : Byte) (cin : Bool) : aluResult .add a b cin = a + b := by
  rw [aluResult, aluWide, ← Int.natCast_add, trunc8_natCast, BitVec.ofNat_add, BitVec.ofNat_toNat, BitVec.ofNat_toNat,
    BitVec.setWidth_eq, BitVec.setWidth_eq]

theorem aluResult_adc (a b : Byte) (cin : Bool) :
    aluResult .adc a b cin = BitVec.ofNat 8 (a.toNat + b.toNat + cin.toNat) := by
  rw [aluResult, aluWide, ← Int.natCast_add, ← Int.natCast_add, trunc8_natCast]

theorem aluResult_sub (a b : Byte) (cin : Bool) : aluResult .sub a b cin = a - b := trunc8_sub a b
theorem aluResult_ana (a b : Byte) (cin : Bool) : aluResult .ana a b cin = a &&& b := trunc8_toNat _
theorem aluResult_xra (a b : Byte) (cin : Bool) : aluResult .xra a b cin = a ^^^ b := trunc8_toNat _
theorem aluResult_ora (a b : Byte) (cin : Bool) : aluResult .ora a b cin = a ||| b := trunc8_toNat _

/-! The column AC of R94, the nibbles as numbers. -/

theorem aluAux_add (a b : Byte) (cin : Bool) :
    aluAux .add a b cin = decide (a.toNat % 16 + b.toNat % 16 > 0xF) := by
  rw [aluAux, lowNibble_eq_mod, lowNibble_eq_mod]

theorem aluAux_adc (a b : Byte) (cin : Bool) :
    aluAux .adc a b cin = decide (a.toNat % 16 + b.toNat % 16 + cin.toNat > 0xF) := by
  rw [aluAux, lowNibble_eq_mod, lowNibble_eq_mod]

theorem aluAux_sub (a b : Byte) (cin : Bool) :
    aluAux .sub a b cin = decide (a.toNat % 16 < b.toNat % 16) := by
  rw [aluAux, lowNibble_eq_mod, lowNibble_eq_mod]

theorem aluAux_sbb (a b : Byte) (cin : Bool) :
    aluAux .sbb a b cin = decide (a.toNat % 16 < b.toNat % 16 + cin.toNat) := by
  rw [aluAux, lowNibble_eq_mod, lowNibble_eq_mod]

theorem aluAux_cmp (a b : Byte) (cin : Bool) :
    aluAux .cmp a b cin = decide (a.toNat % 16 < b.toNat % 16) := by
  rw [aluAux, lowNibble_eq_mod, lowNibble_eq_mod]

/-! The accumulator with itself (R96): its difference, and its double with a carry-in. -/

theorem sub_self_row (a : Byte) (cin : Bool) :
    aluResult .sub a a cin = 0x00#8 ∧ aluCarry .sub a a cin = false ∧ aluAux .sub a a cin = false :=
  ⟨(aluResult_sub a a cin).trans (BitVec.sub_self a), decide_eq_false (Nat.lt_irrefl _),
    decide_eq_false (Nat.lt_irrefl _)⟩

theorem sbb_self_borrow_row (a : Byte) {cin : Bool} (hcin : cin = true) :
    aluResult .sbb a a cin = 0xFF#8 ∧ aluCarry .sbb a a cin = true ∧ aluAux .sbb a a cin = true := by
  subst hcin
  have hwide : aluWide .sbb a a true = -1 := by simp [aluWide]
  exact ⟨congrArg trunc8 hwide, decide_eq_true (Nat.lt_succ_self _), decide_eq_true (Nat.lt_succ_self _)⟩

theorem add_self_eq_shiftLeft (a : Byte) : a + a = a <<< 1 := by
  apply BitVec.eq_of_toNat_eq
  rw [BitVec.toNat_add, BitVec.toNat_shiftLeft, Nat.shiftLeft_eq, Nat.pow_one, Nat.mul_two]

theorem double_add_carry_eq (a : Byte) (cin : Bool) :
    BitVec.ofNat 8 (a.toNat + a.toNat + cin.toNat) = (a <<< 1) ||| (if cin then 0x01#8 else 0x00#8) := by
  have hbit : BitVec.ofNat 8 cin.toNat = if cin then 0x01#8 else 0x00#8 := by cases cin <;> rfl
  have hand : a <<< 1 &&& (if cin then 0x01#8 else 0x00#8) = 0#8 := by
    cases cin
    · simp
    · exact (BitVec.and_twoPow (a <<< 1) 0).trans (by simp)
  rw [BitVec.ofNat_add, BitVec.ofNat_add, BitVec.ofNat_toNat, BitVec.setWidth_eq, add_self_eq_shiftLeft, hbit,
    BitVec.add_eq_or_of_and_eq_zero _ _ hand]

/-- Doubling carries out the top bit, whatever is carried in. -/
theorem double_carry_eq (a : Byte) (cin : Bool) : decide (a.toNat + a.toNat + cin.toNat > 0xFF) = a.getLsbD 7 := by
  have ha := a.isLt
  have hcin := cin.toNat_le
  rw [getLsbD_eq_decide, decide_eq_decide]
  omega

theorem aluAux_add_self (a : Byte) (cin : Bool) : aluAux .add a a cin = a.getLsbD 3 := by
  rw [aluAux_add, getLsbD_eq_decide, decide_eq_decide]
  omega

@[simp] theorem RegFile.write_read (x : RegFile) (r : Reg) : x.write r (x.read r) = x := by
  cases r <;> rfl

theorem aluAux_adc_self (a : Byte) (cin : Bool) :
    aluAux .adc a a cin = decide (2 * (a.toNat % 16) + cin.toNat > 0xF) := by
  rw [aluAux_adc, Nat.two_mul]

/-! All that an ALU instruction leaves (R92 to R97, R121). -/

theorem cyclesOf_alu (costs : OosCost) (o : AluOp) (src : Operand) :
    cyclesOf costs (.alu o src) = if src = .mem then 7 else 4 := by
  cases src <;> rfl

theorem effect_alu_aluEffect {o : AluOp} {src : Operand} {s : State} {res : Byte} {cy ac : Bool}
    (hres : aluResult o (s.getReg .a) (s.operand src) s.carryIn = res)
    (hcy : aluCarry o (s.getReg .a) (s.operand src) s.carryIn = cy)
    (hac : aluAux o (s.getReg .a) (s.operand src) s.carryIn = ac) :
    s.aluEffect (effect (.alu o src) s) src res cy ac := by
  obtain ⟨hCY, hP, hAC, hZ, hS⟩ := effect_alu_flags_getLsbD o src s hres
  have hcycles := effect_cycles (.alu o src) s
  rw [cyclesOf_alu] at hcycles
  exact ⟨hCY.trans hcy, hP, hAC.trans hac, hZ, hS, effect_flags_reserved _ s, hcycles, effect_mem _ s, effect_reports _ s,
    effect_oosCost _ s, effect_memSize _ s, effect_host _ s, effect_pc _ s⟩

theorem effect_alu_regs {o : AluOp} (ho : aluWritesA o = true) {src : Operand} {s : State} {res : Byte}
    (hres : aluResult o (s.getReg .a) (s.operand src) s.carryIn = res) :
    (effect (.alu o src) s).regs = s.regs.write .a res := by
  rw [effect_regs, ← hres]
  exact if_pos ho

/-- An operation that stores its result, by its row of R94. -/
theorem exec_alu_storing {o : AluOp} (ho : aluWritesA o = true) {src : Operand} {s : State} {res : Byte} {cy ac : Bool}
    (hres : aluResult o (s.getReg .a) (s.operand src) s.carryIn = res)
    (hcy : aluCarry o (s.getReg .a) (s.operand src) s.carryIn = cy)
    (hac : aluAux o (s.getReg .a) (s.operand src) s.carryIn = ac) :
    ∃ t : State, exec (Instr.ofForm (.alu o src)) s = .next t ∧ t.regs = s.regs.write .a res ∧
      s.aluEffect t src res cy ac :=
  ⟨effect (.alu o src) s, exec_ofForm _ s, effect_alu_regs ho hres, effect_alu_aluEffect hres hcy hac⟩

/-- The new F of an ALU instruction: the reserved bits of the old, and the five packed flags. -/
theorem effect_alu_flags_packed {o : AluOp} {src : Operand} {s : State} {res : Byte} {cy ac : Bool}
    (hres : aluResult o (s.getReg .a) (s.operand src) s.carryIn = res)
    (hcy : aluCarry o (s.getReg .a) (s.operand src) s.carryIn = cy)
    (hac : aluAux o (s.getReg .a) (s.operand src) s.carryIn = ac) :
    (effect (.alu o src) s).flags =
      (s.flags &&& maskRSV) ||| packFlags cy (evenParity res) ac (res == 0x00#8) (res.getLsbD 7) := by
  rw [effect_alu_flags o src s hres, hcy, hac, flagReplace, packFlags_meaningful]

/-- A zero result without CY and AC leaves Z and P alone set (R96). -/
theorem effect_alu_flags_zero {o : AluOp} {src : Operand} {s : State}
    (hres : aluResult o (s.getReg .a) (s.operand src) s.carryIn = 0x00#8)
    (hcy : aluCarry o (s.getReg .a) (s.operand src) s.carryIn = false)
    (hac : aluAux o (s.getReg .a) (s.operand src) s.carryIn = false) :
    (effect (.alu o src) s).flags = (s.flags &&& 0x54#8) ||| 0x22#8 :=
  effect_alu_flags_packed hres hcy hac

/-! Operations whose rows of R94 agree. -/

/-- Two operations with one row of R94 are one instruction. -/
theorem effect_alu_congr {o o' : AluOp} {src : Operand} {s : State} (hw : aluWritesA o = aluWritesA o')
    (hres : aluResult o (s.getReg .a) (s.operand src) s.carryIn = aluResult o' (s.getReg .a) (s.operand src) s.carryIn)
    (hcy : aluCarry o (s.getReg .a) (s.operand src) s.carryIn = aluCarry o' (s.getReg .a) (s.operand src) s.carryIn)
    (hac : aluAux o (s.getReg .a) (s.operand src) s.carryIn = aluAux o' (s.getReg .a) (s.operand src) s.carryIn) :
    effect (.alu o src) s = effect (.alu o' src) s := by
  have hcharge : s.charge (.alu o src) = s.charge (.alu o' src) := by
    rw [State.charge, State.charge, cyclesOf_alu, cyclesOf_alu]
  rw [effect, effect, alu, alu, hcharge, State.setAcc, State.setAcc, hw, hres, aluFlags, aluFlags, hres, hcy, hac]

theorem effect_adc_of_carry_clear {s : State} (hclear : s.carryIn = false) (src : Operand) :
    effect (.alu .adc src) s = effect (.alu .add src) s := by
  refine effect_alu_congr rfl ?_ ?_ ?_ <;> rw [hclear]
  · simp [aluResult, aluWide]
  · rfl
  · rfl

theorem effect_sbb_of_carry_clear {s : State} (hclear : s.carryIn = false) (src : Operand) :
    effect (.alu .sbb src) s = effect (.alu .sub src) s := by
  refine effect_alu_congr rfl ?_ ?_ ?_ <;> rw [hclear]
  · simp [aluResult, aluWide]
  · rfl
  · rfl

end Sys2Proof.Machine
end

/-! PROOFS. The flag operations (R24, R26) and the rows of the ALU table (R94, R100 to R115). -/
section
namespace Sys2Proof.Machine

/-- Settles O8: each mask is one bit of F, and the shifts of R93 put each flag at its mask. -/
theorem flagMaskLayout : Obligations.FlagMaskLayout := by
  refine ⟨rfl, rfl, rfl, rfl, rfl, fun f => ?_, fun cy p ac z n => ?_⟩
  · have hbit (n : Nat) (hn : n < 8) := flagIsSet_twoPow f n hn
    exact ⟨hbit 7 (by decide), hbit 5 (by decide), hbit 3 (by decide), hbit 1 (by decide), hbit 0 (by decide)⟩
  · obtain ⟨h7, h5, h3, h1, h0⟩ := packFlags_getLsbD cy p ac z n
    have hreserved : packFlags cy p ac z n &&& maskRSV = 0x00#8 := by
      rw [← packFlags_meaningful, BitVec.and_assoc]
      simp
    exact ⟨h7, h5, h3, h1, h0, hreserved⟩

/-- Settles O9: each operation is bitwise, and the reserved bits are bits 6, 4 and 2. -/
theorem flagOperationsBitByBit : Obligations.FlagOperationsBitByBit := by
  intro f m n hn
  refine ⟨by simp [flagSet], by simp [flagClear, hn], ?_⟩
  by_cases hres : n = 6 ∨ n = 4 ∨ n = 2
  · simp [flagReplace, hn, maskRSV_getElem, hres]
  · simp [flagReplace, hn, maskRSV_getElem, hres]

/-- Settles O18: the row ADD. -/
theorem addResultAndFlags : Obligations.AddResultAndFlags := fun _ _ =>
  exec_alu_storing rfl (aluResult_add _ _ _) rfl (aluAux_add _ _ _)

/-- Settles O19: the row ADC, its carry-in being bit 7 of F. -/
theorem adcResultAndFlags : Obligations.AdcResultAndFlags := by
  intro src s
  simp only [← carryIn_eq_bit]
  exact exec_alu_storing rfl (aluResult_adc _ _ _) rfl (aluAux_adc _ _ _)

/-- Settles O20: the row SUB. -/
theorem subResultAndFlags : Obligations.SubResultAndFlags := fun _ _ =>
  exec_alu_storing rfl (aluResult_sub _ _ _) rfl (aluAux_sub _ _ _)

/-- Settles O21: the row SBB, its borrow-in being bit 7 of F. -/
theorem sbbResultAndFlags : Obligations.SbbResultAndFlags := by
  intro src s
  simp only [← carryIn_eq_bit]
  exact exec_alu_storing rfl rfl rfl (aluAux_sbb _ _ _)

/-- Settles O22: the row ANA. -/
theorem anaResultAndFlags : Obligations.AnaResultAndFlags := fun _ _ =>
  exec_alu_storing rfl (aluResult_ana _ _ _) rfl rfl

/-- Settles O23: the row XRA. -/
theorem xraResultAndFlags : Obligations.XraResultAndFlags := fun _ _ =>
  exec_alu_storing rfl (aluResult_xra _ _ _) rfl rfl

/-- Settles O24: the row ORA. -/
theorem oraResultAndFlags : Obligations.OraResultAndFlags := fun _ _ =>
  exec_alu_storing rfl (aluResult_ora _ _ _) rfl rfl

/-- Settles O25: the row CMP, the one that stores no result. -/
theorem cmpFlagsWithoutResult : Obligations.CmpFlagsWithoutResult := fun src s =>
  ⟨effect (.alu .cmp src) s, exec_ofForm _ s, effect_regs _ s,
    effect_alu_aluEffect (aluResult_cmp _ _ _) rfl (aluAux_cmp _ _ _)⟩

/-- Settles O31: CMP has SUB's row but for the store of the result. -/
theorem compareIsSubtractWithoutStore : Obligations.CompareIsSubtractWithoutStore := by
  intro src s
  have hcmp : effect (.alu .cmp src) s = { effect (.alu .sub src) s with regs := s.regs } := by
    cases src <;> rfl
  exact ⟨effect (.alu .sub src) s, exec_ofForm _ s, hcmp ▸ exec_ofForm _ s⟩

/-- Settles O32: with carry-in 0 the rows of ADC and SBB are those of ADD and SUB. -/
theorem carryClearMakesAdcAddAndSbbSub : Obligations.CarryClearMakesAdcAddAndSbbSub := by
  intro src s hclear
  rw [← carryIn_eq_bit] at hclear
  exact ⟨⟨_, exec_ofForm _ s, effect_adc_of_carry_clear hclear src ▸ exec_ofForm _ s⟩,
    ⟨_, exec_ofForm _ s, effect_sbb_of_carry_clear hclear src ▸ exec_ofForm _ s⟩⟩

/-- Settles O30: each form with operand A is its row of R94 with b = A. -/
theorem accumulatorWithItself : Obligations.AccumulatorWithItself := by
  intro s
  obtain ⟨hsub, hsubcy, hsubac⟩ := sub_self_row (s.getReg .a) s.carryIn
  have hxor : aluResult .xra (s.getReg .a) (s.getReg .a) s.carryIn = 0x00#8 := by rw [aluResult_xra, BitVec.xor_self]
  have hand : aluResult .ana (s.getReg .a) (s.getReg .a) s.carryIn = s.regs.read .a := by
    rw [aluResult_ana, BitVec.and_self, State.getReg]
  have hor : aluResult .ora (s.getReg .a) (s.getReg .a) s.carryIn = s.regs.read .a := by
    rw [aluResult_ora, BitVec.or_self, State.getReg]
  rw [← carryIn_eq_bit]
  refine ⟨⟨_, exec_eq_effect .subA s, effect_alu_regs rfl hsub, effect_alu_flags_zero hsub hsubcy hsubac⟩,
    ⟨_, exec_eq_effect .xraA s, effect_alu_regs rfl hxor, effect_alu_flags_zero hxor rfl rfl⟩,
    ⟨_, exec_eq_effect .cmpA s, effect_regs _ s, effect_alu_flags_zero hsub hsubcy hsubac⟩,
    ⟨_, exec_eq_effect .sbbA s, fun hclear => ?_, fun hset => ?_⟩,
    ⟨_, exec_eq_effect .addA s, ?_⟩, ⟨_, exec_eq_effect .adcA s, ?_⟩, ?_, ?_⟩
  · rw [show Instr.form .sbbA = .alu .sbb (.reg .a) from rfl, effect_sbb_of_carry_clear hclear]
    exact ⟨effect_alu_regs rfl hsub, effect_alu_flags_zero hsub hsubcy hsubac⟩
  · obtain ⟨hsbb, hsbbcy, hsbbac⟩ := sbb_self_borrow_row (s.getReg .a) hset
    exact ⟨effect_alu_regs rfl hsbb, effect_alu_flags_packed (o := .sbb) (src := .reg .a) hsbb hsbbcy hsbbac⟩
  · obtain ⟨hCY, -, hAC, -⟩ := effect_alu_flags_getLsbD .add (.reg .a) s (aluResult_add _ _ _)
    have hacc := effect_alu_acc (o := .add) (by decide) (.reg .a) s
    exact ⟨hacc.trans ((aluResult_add _ _ _).trans (add_self_eq_shiftLeft _)), hCY.trans (double_carry_eq _ false),
      hAC.trans (aluAux_add_self _ _)⟩
  · obtain ⟨hCY, -, hAC, -⟩ := effect_alu_flags_getLsbD .adc (.reg .a) s (aluResult_adc _ _ _)
    have hacc := effect_alu_acc (o := .adc) (by decide) (.reg .a) s
    exact ⟨hacc.trans ((aluResult_adc _ _ _).trans (double_add_carry_eq _ _)), hCY.trans (double_carry_eq _ _),
      hAC.trans (aluAux_adc_self _ _)⟩
  · obtain ⟨t, hexec, hregs, heffect⟩ := exec_alu_storing (o := .ana) (src := .reg .a) rfl hand rfl rfl
    exact ⟨t, hexec, hregs.trans (RegFile.write_read _ _), heffect⟩
  · obtain ⟨t, hexec, hregs, heffect⟩ := exec_alu_storing (o := .ora) (src := .reg .a) rfl hor rfl rfl
    exact ⟨t, hexec, hregs.trans (RegFile.write_read _ _), heffect⟩

end Sys2Proof.Machine
end

/-! SUPPORT. The canonical form determines the memory, and what two states that agree on an instruction's inputs share. -/
section
namespace Sys2Proof.Machine

/-! The canonical form (log 6): a list whose addresses rise is the function it reads as. -/

theorem read_eq_unlisted {m : Memory} {a : Nat} (h : ∀ cell ∈ m, a < cell.1) : m.read a = Memory.unlisted := by
  induction m with
  | nil => rfl
  | cons cell rest ih =>
    have hne : cell.1 ≠ a := (h cell List.mem_cons_self).ne'
    rw [Memory.read, if_neg hne]
    exact ih fun c hc => h c (List.mem_cons_of_mem _ hc)

@[simp] theorem read_cons_same (k : Nat) (v : Byte) (rest : Memory) : Memory.read ((k, v) :: rest) k = v := if_pos rfl

theorem read_cons_other {k a : Nat} (h : k ≠ a) (v : Byte) (rest : Memory) :
    Memory.read ((k, v) :: rest) a = rest.read a := if_neg h

/-- The first listed address of a canonical memory is the least that reads as a listed byte. -/
theorem head_le_of_read_ne {k a : Nat} {v : Byte} {rest : Memory} (hlt : ∀ cell ∈ rest, k < cell.1)
    (hread : Memory.read ((k, v) :: rest) a ≠ Memory.unlisted) : k ≤ a := by
  by_contra hak
  have hak : a < k := Nat.lt_of_not_le hak
  refine hread (read_eq_unlisted fun cell hcell => ?_)
  rcases List.mem_cons.mp hcell with rfl | hrest
  · exact hak
  · exact hak.trans (hlt cell hrest)

theorem eq_of_read_eq {m m' : Memory} (hm : m.wf = true) (hm' : m'.wf = true) (h : ∀ a, m.read a = m'.read a) : m = m' := by
  induction m generalizing m' with
  | nil =>
    cases m' with
    | nil => rfl
    | cons cell' rest' =>
      obtain ⟨hv', -, -⟩ := (wf_cons cell'.1 cell'.2 rest').mp hm'
      exact absurd ((h cell'.1).trans (read_cons_same _ _ rest')).symm hv'
  | cons cell rest ih =>
    obtain ⟨k, v⟩ := cell
    obtain ⟨hv, hlt, hrest⟩ := (wf_cons k v rest).mp hm
    cases m' with
    | nil => exact absurd ((read_cons_same k v rest).symm.trans (h k)) hv
    | cons cell' rest' =>
      obtain ⟨k', v'⟩ := cell'
      obtain ⟨hv', hlt', hrest'⟩ := (wf_cons k' v' rest').mp hm'
      have hle : k ≤ k' := head_le_of_read_ne hlt (by rwa [h, read_cons_same])
      have hge : k' ≤ k := head_le_of_read_ne hlt' (by rwa [← h, read_cons_same])
      obtain rfl := Nat.le_antisymm hle hge
      have hvalue : v = v' := by simpa using h k
      have htail (a : Nat) : Memory.read rest a = Memory.read rest' a := by
        by_cases ha : k = a
        · subst ha
          rw [read_eq_unlisted hlt, read_eq_unlisted hlt']
        · simpa only [read_cons_other ha] using h a
      rw [hvalue, ih hrest hrest' htail]

/-! Where an operand comes from (R63, R90). -/

theorem loadByte_hl (s : State) :
    s.loadByte s.hl = s.mem.read (256 * (s.regs.read .h).toNat + (s.regs.read .l).toNat) := by
  rw [State.loadByte, hl_toNat]

/-! The inputs of an instruction: the registers, F, and of memory the byte at HL alone. -/

theorem operand_congr {s u : State} (hregs : u.regs = s.regs) (hbyte : u.mem.read s.hl.toNat = s.mem.read s.hl.toNat)
    (src : Operand) : u.operand src = s.operand src := by
  cases src with
  | reg r => exact getReg_of_regs s u hregs r
  | mem => rw [State.operand, State.operand, State.loadByte, State.loadByte, hl_of_regs s u hregs, hbyte]

theorem effect_regs_flags_congr {s u : State} (f : Form) (hregs : u.regs = s.regs) (hflags : u.flags = s.flags)
    (hbyte : u.mem.read s.hl.toNat = s.mem.read s.hl.toNat) :
    (effect f u).regs = (effect f s).regs ∧ (effect f u).flags = (effect f s).flags := by
  have hcarry : u.carryIn = s.carryIn := by rw [State.carryIn, State.carryIn, hflags]
  have hload : u.loadByte u.hl = s.loadByte s.hl := operand_congr hregs hbyte .mem
  have hreg := getReg_of_regs s u hregs
  have hsrc := operand_congr hregs hbyte
  simp only [effect_regs, effect_flags]
  cases f <;> simp only [hregs, hflags, hcarry, hload, hreg, hsrc, and_self]

theorem effect_mem_congr {s u : State} (f : Form) (hregs : u.regs = s.regs) (hmem : u.mem = s.mem) :
    (effect f u).mem = (effect f s).mem := by
  simp only [effect_mem]
  cases f <;> simp only [hmem, hl_of_regs s u hregs, getReg_of_regs s u hregs]

theorem effect_reports_congr {s u : State} (f : Form) (h : u.reports = s.reports) :
    (effect f u).reports = (effect f s).reports := by
  simp only [effect_reports, h]

theorem effect_cycles_congr {s u : State} (f : Form) (hcycles : u.cycles = s.cycles) (hcost : u.oosCost = s.oosCost) :
    (effect f u).cycles = (effect f s).cycles := by
  rw [effect_cycles, effect_cycles, hcycles, hcost]

/-! Where an instruction may write memory (R42, R44). -/

/-- A form changes no byte, but MOV M,r may change the one at HL. -/
theorem effect_mem_read_other {f : Form} {s : State} {a : Nat} (h : f.stores = true → a ≠ s.hl.toNat) :
    (effect f s).mem.read a = s.mem.read a := by
  rw [effect_mem]
  cases f with
  | movMR src => exact read_write_other _ _ _ _ (h rfl)
  | movRR | movRM | alu | unimplemented => rfl

end Sys2Proof.Machine
end

/-! PROOFS. The memory and the effective address (R40, R43, R48), and data movement (R80 to R84). -/
section
namespace Sys2Proof.Machine

/-- Settles O10: HL is the two registers side by side. -/
theorem effectiveAddressIsConcatenation : Obligations.EffectiveAddressIsConcatenation := by
  intro s
  refine ⟨hl_toNat s, ?_, ?_⟩ <;> rw [hl_eq_append]
  · exact BitVec.extractLsb'_append_eq_left
  · exact BitVec.extractLsb'_append_eq_right

/-- Settles O11: by induction on the list, whose head is the least address that reads as a listed byte. -/
theorem equalReadsAreEqualMemories : Obligations.EqualReadsAreEqualMemories :=
  fun _ _ hm hm' h => eq_of_read_eq hm hm' h

/-- Settles O58: the two operand forms of R63, the address as a number. -/
theorem operandIsRegisterOrByteAtHL : Obligations.OperandIsRegisterOrByteAtHL :=
  fun s => ⟨fun _ => rfl, loadByte_hl s⟩

/-- Settles O12: the effect of MOV r,r', whose fixed cost is 5. -/
theorem movRegisterToRegister : Obligations.MovRegisterToRegister :=
  fun dst src s => exec_ofForm (.movRR dst src) s

/-- Settles O13: writing a register its own value changes nothing. -/
theorem movSameRegisterIsIdentity : Obligations.MovSameRegisterIsIdentity := by
  intro r s
  rw [movRegisterToRegister, RegFile.write_read]

/-- Settles O14: the effect of MOV r,M, its address formed before the write. -/
theorem movFromMemory : Obligations.MovFromMemory := by
  intro dst s
  rw [← loadByte_hl]
  exact exec_ofForm (.movRM dst) s

/-- Settles O15: one write at HL, seen there and nowhere else. -/
theorem movToMemory : Obligations.MovToMemory := by
  intro src s
  refine ⟨effect (.movMR src) s, exec_ofForm _ s, fun a => ?_, effect_regs _ s, effect_flags _ s, effect_cycles _ s,
    effect_reports _ s, effect_oosCost _ s, effect_memSize _ s, effect_host _ s, effect_pc _ s⟩
  rw [effect_mem, ← hl_toNat]
  exact read_write _ _ _ _

/-- Settles O16: the store leaves HL as it was, so the load reads the byte just written. -/
theorem storeThenLoadGivesTheByte : Obligations.StoreThenLoadGivesTheByte := by
  intro src dst s
  obtain ⟨t, hstore, hread, hregs, -⟩ := movToMemory src s
  refine ⟨t, _, hstore, movFromMemory dst t, ?_⟩
  rw [RegFile.read_write_same, hread, hregs, if_pos rfl]

end Sys2Proof.Machine
end

/-! PROOFS. What any instruction changes and what it depends on (R22, R27, R42, R44), its cost (R120 to R124) and its
report (R126). -/
section
namespace Sys2Proof.Machine

/-- Settles O34: a form writes its destination alone. -/
theorem onlyTheDestinationRegisterChanges : Obligations.OnlyTheDestinationRegisterChanges :=
  fun i s => ⟨effect i.form s, exec_eq_effect i s, fun _ h => effect_read_of_ne_destination h s⟩

/-- Settles O35: the one write is MOV M,r's, at HL, which is below 0x10000. -/
theorem onlyMovToMemoryWritesMemory : Obligations.OnlyMovToMemoryWritesMemory := by
  refine fun i s => ⟨effect i.form s, exec_eq_effect i s, fun hstores a => ?_, fun _ a ha => ?_, fun a ha => ?_⟩
  · exact effect_mem_read_other fun h => by simp [hstores] at h
  · exact effect_mem_read_other fun _ => ha
  · exact effect_mem_read_other fun _ => (s.hl.isLt.trans_le ha).ne'

/-- Settles O36: of memory an instruction reads the byte at HL alone. -/
theorem memoryIsReadOnlyAtHL : Obligations.MemoryIsReadOnlyAtHL := by
  intro i s m hbyte
  obtain ⟨hregs, hflags⟩ := effect_regs_flags_congr (s := s) (u := { s with mem := m }) i.form rfl rfl hbyte
  exact ⟨_, _, exec_eq_effect i s, exec_eq_effect i _, hregs, hflags, effect_cycles_congr _ rfl rfl,
    effect_reports_congr _ rfl⟩

/-- Settles O41: an instruction reads neither the counter nor OOS_COST, but to count. -/
theorem resultsDoNotDependOnCycles : Obligations.ResultsDoNotDependOnCycles := by
  intro i s n costs
  obtain ⟨hregs, hflags⟩ :=
    effect_regs_flags_congr (s := s) (u := { s with cycles := n, oosCost := costs }) i.form rfl rfl rfl
  exact ⟨_, _, exec_eq_effect i s, exec_eq_effect i _, hregs, hflags, effect_mem_congr _ rfl rfl,
    effect_reports_congr _ rfl⟩

/-- Settles O38: no effect writes a parameter, the pending moves or the driver's pc. -/
theorem execLeavesTheCallersSideAlone : Obligations.ExecLeavesTheCallersSideAlone :=
  fun i s => ⟨effect i.form s, exec_eq_effect i s, effect_oosCost _ s, effect_memSize _ s, effect_host _ s, effect_pc _ s⟩

/-- Settles O39: CT[op] is the cost of the form op decodes to, and an unimplemented form carries op. -/
theorem cycleCostsByForm : Obligations.CycleCostsByForm := by
  intro costs op
  refine ⟨?_, rfl, fun n => by simp [oosCostOf]⟩
  rw [decodeByte_form, cycleTable]
  cases hform : decodeForm op with
  | movRR | movRM | movMR => rfl
  | alu o src => cases src <;> rfl
  | unimplemented op' =>
    obtain rfl := eq_of_decodeForm_eq_unimplemented hform
    rfl

/-- Settles O40: an instruction adds the cost of its form, which is the form its opcode decodes to. -/
theorem executeAddsTheTabulatedCost : Obligations.ExecuteAddsTheTabulatedCost := by
  intro op s
  refine ⟨effect (decodeByte op).form s, exec_eq_effect _ s, ?_⟩
  rw [effect_cycles, decodeByte_form, cycleTable]

/-- Settles O42: the effect of the unimplemented form. -/
theorem unimplementedCountsAndReportsOnly : Obligations.UnimplementedCountsAndReportsOnly :=
  fun op s => exec_eq_effect (.unimplemented op) s

/-- Settles O43: only the unimplemented form reports, and an opcode decodes to it exactly if it is one of the 129. -/
theorem reportsComeFromUnimplementedOpcodesOnly : Obligations.ReportsComeFromUnimplementedOpcodesOnly := by
  intro op s
  refine ⟨effect (decodeByte op).form s, exec_eq_effect _ s, ?_⟩
  simp only [effect_reports, decodeByte_form, ← decodeForm_eq_unimplemented_iff]
  cases hform : decodeForm op with
  | movRR | movRM | movMR | alu => simp
  | unimplemented op' =>
    obtain rfl := eq_of_decodeForm_eq_unimplemented hform
    simp

end Sys2Proof.Machine
end

/-! SUPPORT. What one step is, forward: one equation for each of the caller's moves, for its driver, and for each refusal. -/
section
namespace Sys2Proof.Machine

variable {s : State} {rest : List HostMove}

theorem step_driver (hadm : s.admitted = true) (hhost : s.host = []) :
    step s = exec (decodeByte s.fetch) s.advancePc := by
  simp only [step, nextCall_admitted s hadm, callerChoice, hhost, driverCall]

theorem nextCall_move {m : HostMove} (hadm : s.admitted = true) (hhost : s.host = m :: rest) :
    nextCall s = moveCall m (s.setHost rest) := by
  simp only [nextCall_admitted s hadm, callerChoice, hhost]

theorem step_init (hadm : s.admitted = true) {v : Option (Vector Byte 7)} (hhost : s.host = .init v :: rest) :
    step s = .next ((s.setHost rest).init v) := by
  rw [step, nextCall_move hadm hhost, moveCall]

theorem step_execute (hadm : s.admitted = true) {op : Byte} (hhost : s.host = .execute op :: rest) :
    step s = exec (decodeByte op) (s.setHost rest) := by
  rw [step, nextCall_move hadm hhost, moveCall]

theorem step_inspect (hadm : s.admitted = true) (hhost : s.host = .inspect :: rest) :
    step s = .next (s.setHost rest) := by
  rw [step, nextCall_move hadm hhost, moveCall]

theorem step_poke (hadm : s.admitted = true) {a : Nat} {v : Byte} (hhost : s.host = .poke a v :: rest)
    (ha : a < s.memSize) : step s = .next { s.setHost rest with mem := s.mem.write a v } := by
  rw [step, nextCall_move hadm hhost, moveCall, pokeCall, setHost_memSize, if_pos ha]
  rfl

theorem step_poke_outside (hadm : s.admitted = true) {a : Nat} {v : Byte} (hhost : s.host = .poke a v :: rest)
    (ha : s.memSize ≤ a) : step s = .refused .pokeOutsideMemory := by
  rw [step, nextCall_move hadm hhost, moveCall, pokeCall, setHost_memSize, if_neg (Nat.not_lt.mpr ha)]

theorem step_memoryTooSmall (hsize : s.memSize < Config.minMemSize) : step s = .refused .memoryTooSmall := by
  rw [step, nextCall, if_pos hsize]

theorem step_everyOpcodeCosted (hsize : Config.minMemSize ≤ s.memSize) (hcost : someUncosted s.oosCost = false) :
    step s = .refused .everyOpcodeCosted := by
  rw [step, nextCall, if_neg (Nat.not_lt.mpr hsize), if_pos hcost]

/-- An allowed move, or none, is always answered with a next state (R149). -/
theorem step_next_of_allowed (hadm : s.admitted = true) (hallowed : s.nextAllowed = true) : ∃ t, step s = .next t := by
  cases hhost : s.host with
  | nil => exact ⟨_, (step_driver hadm hhost).trans (exec_eq_effect _ _)⟩
  | cons m rest =>
    cases m with
    | init v => exact ⟨_, step_init hadm hhost⟩
    | execute op => exact ⟨_, (step_execute hadm hhost).trans (exec_eq_effect _ _)⟩
    | inspect => exact ⟨_, step_inspect hadm hhost⟩
    | poke a v =>
      have ha : a < s.memSize := by simpa [State.nextAllowed, hhost, HostMove.allowed] using hallowed
      exact ⟨_, step_poke hadm hhost ha⟩

theorem admitted_of_eq {s t : State} (hcost : t.oosCost = s.oosCost) (hsize : t.memSize = s.memSize)
    (hadm : s.admitted = true) : t.admitted = true := by
  rwa [State.admitted, hcost, hsize]

/-- A run begins with its first step. -/
theorem run_succ_of_step {s t : State} (h : step s = .next t) (n : Nat) :
    Host.Core.run core (n + 1) s = Host.Core.run core n t := by
  have hcore : core.step s = .next t := h
  simp only [Host.Core.run, hcore]

theorem ofSnapshot_read (v : Vector Byte 7) (r : Reg) :
    (RegFile.ofSnapshot v).read r = v[(r.index : Nat)]'(r.index.isLt) := by
  cases r <;> rfl

end Sys2Proof.Machine
end

/-! PROOFS. The caller (R154), its driver (D11), and runs (R170). -/
section
namespace Sys2Proof.Machine

/-- A single byte decodes to what `decodeByte` says of it. -/
theorem decode_singleton {op : Byte} {i : Instr} {rest : List Byte} (h : decode [op] = .ok (i, rest)) :
    decodeByte op = i :=
  (Prod.mk.inj (Except.ok.inj h)).1

/-- Settles O44: the driver fetches at pc, advances it and calls Execute. -/
theorem driverStepRunsTheDecodedInstruction : Obligations.DriverStepRunsTheDecodedInstruction := by
  intro s i rest hadm hhost hdecode
  rw [step_driver hadm hhost, ← decode_singleton hdecode]
  rfl

/-- Settles O45: the move Execute(op) is a call of `exec` on what op decodes to. -/
theorem executeMoveRunsTheDecodedInstruction : Obligations.ExecuteMoveRunsTheDecodedInstruction := by
  intro s op i rest out hadm hhost hdecode
  rw [step_execute hadm hhost, ← decode_singleton hdecode]
  rfl

/-- Settles O46: the three moves in which nothing is executed. -/
theorem callerMovesOtherThanExecute : Obligations.CallerMovesOtherThanExecute :=
  fun s _ hadm => ⟨fun _ hhost => step_init hadm hhost, fun hhost => step_inspect hadm hhost,
    fun a v hhost ha => ⟨_, step_poke hadm hhost ha, fun b => read_write s.mem a b v, rfl⟩⟩

/-- Settles O47: the two refused configurations and the refused move. -/
theorem refusedConfigurationsAndMoves : Obligations.RefusedConfigurationsAndMoves := by
  refine ⟨fun s hsize => step_memoryTooSmall hsize, fun s hsize hcosts => ?_,
    fun s a v rest hadm hhost ha => step_poke_outside hadm hhost ha⟩
  refine step_everyOpcodeCosted hsize (Bool.eq_false_iff.mpr fun hsome => ?_)
  obtain ⟨op, hop, hzero⟩ := (someUncosted_iff s.oosCost).mp hsome
  exact hcosts op hop hzero

/-- Settles O48: the opcode of cost 0 makes the configuration an admitted one. -/
theorem admittedStepAlwaysGoesOn : Obligations.AdmittedStepAlwaysGoesOn := by
  intro s op hsize hop hzero hallowed
  have hadm : s.admitted = true := (admitted_iff s).mpr ⟨hsize, (someUncosted_iff _).mpr ⟨op, hop, hzero⟩⟩
  exact step_next_of_allowed hadm hallowed

/-- Settles O49: Init field by field. -/
theorem initSetsTheWholeCore : Obligations.InitSetsTheWholeCore := by
  refine ⟨fun s v => ⟨fun r => ?_, fun r => ?_⟩, fun s v => ⟨rfl, rfl, fun op => ?_, rfl, rfl, rfl, rfl, rfl, rfl⟩⟩
  · exact ofSnapshot_read v r
  · rw [init_regs, ofSnapshot_read]
    exact Vector.getElem_replicate _
  · rw [decodeByte_form, init_oosCost, cycleTable]

/-- Settles O50: the reset state's fields. -/
theorem resetStateIsInitWithDefaults : Obligations.ResetStateIsInitWithDefaults :=
  ⟨fun r => by cases r <;> rfl, rfl, rfl, fun _ => rfl, rfl, rfl, rfl, rfl, rfl⟩

theorem cycles_le_effect (f : Form) (s : State) : s.cycles ≤ (effect f s).cycles := by
  rw [effect_cycles]
  exact Nat.le_add_right _ _

/-- Settles O55: Init zeroes the counter, an instruction adds its cost, and the other moves keep it. -/
theorem cyclesNeverDecreaseButByInit : Obligations.CyclesNeverDecreaseButByInit := by
  intro s t h
  refine ⟨fun v rest hhost => ?_, fun hnotInit => ?_⟩
  · rw [step_init (admitted_of_step s t h) hhost] at h
    rw [← Host.Outcome.next.inj h, init_cycles]
  · obtain ⟨-, rfl⟩ | ⟨v, rest, hhost, -⟩ | ⟨op, rest, -, rfl⟩ | ⟨rest, -, rfl⟩ | ⟨a, v, rest, -, -, rfl⟩ :=
      step_cases s t h
    · exact cycles_le_effect _ s.advancePc
    · exact absurd hhost (hnotInit v rest)
    · exact cycles_le_effect _ (s.setHost rest)
    · exact Nat.le_refl _
    · exact Nat.le_refl _

/-- Settles O56: by induction over the calls; each adds its own cost and keeps the table and the configuration. -/
theorem cyclesSumOverExecuteCalls : Obligations.CyclesSumOverExecuteCalls := by
  intro ops rest
  induction ops with
  | nil => exact fun s _ hhost => ⟨s, rfl, hhost, rfl⟩
  | cons op ops ih =>
    intro s hadm hhost
    have hstep := (step_execute hadm hhost).trans (exec_eq_effect _ _)
    have hcost := effect_oosCost (decodeByte op).form (s.setHost (ops.map HostMove.execute ++ rest))
    obtain ⟨t, hrun, hrest, hcycles⟩ := ih _ (admitted_of_eq hcost (effect_memSize _ _) hadm) (effect_host _ _)
    refine ⟨t, (run_succ_of_step hstep _).trans hrun, hrest, ?_⟩
    rw [hcycles, hcost, effect_cycles, decodeByte_form, List.map_cons, List.sum_cons, ← Nat.add_assoc]
    rfl

/-- MOV M,r with HL at the advanced pc: the driver's next fetch is the stored byte (R55). -/
theorem fetch_after_store {s : State} (src : Reg) (hhl : s.hl = s.pc + 1#16) :
    (effect (.movMR src) s.advancePc).fetch = s.regs.read src := by
  rw [State.fetch, State.loadByte, effect_mem, effect_pc, advancePc_pc, ← hhl]
  exact read_write_same _ _ _

theorem advancePc_effect_advancePc (f : Form) (s : State) :
    (effect f s.advancePc).advancePc = { effect f s.advancePc with pc := s.pc + 2#16 } := by
  rw [State.advancePc, effect_pc, advancePc_pc, BitVec.add_assoc]
  rfl

/-- Settles O57: the store is at the advanced pc, so the next fetch reads the stored byte. -/
theorem storeIsSeenByTheNextFetch : Obligations.StoreIsSeenByTheNextFetch := by
  intro src s hadm hhost hop hhl
  have hstep : step s = .next (effect (.movMR src) s.advancePc) := by
    rw [step_driver hadm hhost, State.fetch, State.loadByte, hop, exec_ofForm]
  have hadm' : (effect (.movMR src) s.advancePc).admitted = true :=
    admitted_of_eq (effect_oosCost _ _) (effect_memSize _ _) hadm
  refine ⟨_, hstep, ?_⟩
  rw [step_driver hadm' ((effect_host _ _).trans hhost), fetch_after_store src hhl, advancePc_effect_advancePc]

end Sys2Proof.Machine
end
